-- ==== Sys2Proof/Word.lean ====
section
/-! DEFINITION. The plain value types of the G460 model and the two accessors of a fixed table.

A byte of the link is a bit vector, because the manual numbers its bits. A grey level, a code point, a
coordinate, a document offset and every count are numbers in the manual and are numbers here. -/

namespace Sys2Proof

/-- One byte of the command link, or one byte of the glyph pool (R18, R171). -/
abbrev Byte := BitVec 8

/-- A grey level of an image plane, 0 black to 15 paper white (R1). -/
abbrev Level := Fin 16

/-- Paper white (R1). -/
abbrev white : Level := 15

/-- Entry `i` of a fixed table, or `d` beyond its last entry. -/
def look {α : Type} {n : Nat} (v : Vector α n) (i : Nat) (d : α) : α := (v[i]?).getD d

/-- The table with entry `i` replaced; a table without such an entry is left as it is. -/
def put {α : Type} {n : Nat} (v : Vector α n) (i : Nat) (x : α) : Vector α n := v.setIfInBounds i x

/-- The table with `f` applied to every entry. -/
def mapAll {α β : Type} {n : Nat} (f : α → β) (v : Vector α n) : Vector β n :=
  ⟨⟨v.toList.map f⟩, by simp⟩

/-- The table with `f` applied to every entry and its place. -/
def mapPlaces {α β : Type} {n : Nat} (f : Nat → α → β) (v : Vector α n) : Vector β n :=
  ⟨⟨v.toList.mapIdx f⟩, by simp⟩

/-- A number clamped into `lo` to `hi`. -/
def clampNat (lo hi x : Nat) : Nat := max lo (min hi x)

/-- A signed number clamped into `lo` to `hi`. -/
def clampInt (lo hi x : Int) : Int := max lo (min hi x)

end Sys2Proof
end

