-- ==== Sys2Proof/Syntax.lean ====
section
/-! DEFINITION. The commands of the block: one constructor for each row of spec/opcode_table.json.

A row is one whole, indivisible step of the part (95_what_each_step_holds.md). The host gives data to the part
in one way only, one byte at a time on the link (R171), so only the row of a byte carries a byte. A host
command such as TEMPLATE SET acts at the arrival of its last byte from the inbound FIFO (R172), with the parameter
bytes that the link has collected: its operands are in the state of the link when its row is taken (DEDUCED, safe: log entry 1;
the two phases of CS_RISING and the two spellings of RESET: log entry 3). -/

namespace Sys2Proof

/-- The level of the D/C line at the eighth bit of a byte (R171). -/
inductive ByteKind where
  /-- D/C low: a command byte -/
  | command
  /-- D/C high: a parameter byte -/
  | parameter
  deriving DecidableEq, Repr

/-- The two moments of a CS rising: the edge of the line, and its arrival from the FIFO (R171, R172). -/
inductive CsPhase where
  /-- the line rises; the rising is kept in the FIFO in its place among the bytes -/
  | edge
  /-- the link reaches the place of the rising in the FIFO -/
  | arrival
  deriving DecidableEq, Repr

/-- The steps of the G460. -/
inductive Instr where
  /-- The part's own supply comes up (R169). -/
  | powerOn
  /-- The RESET pin is driven low and released (R169). -/
  | resetPin
  /-- Start-up ends (R169). -/
  | startUpDone
  /-- A byte is clocked in on the link (R171). -/
  | byteClockedIn (kind : ByteKind) (value : Byte)
  /-- CS rises, or a CS rising kept in the FIFO arrives (R171, R172). -/
  | csRising (phase : CsPhase)
  /-- The link reaches the place of a command byte dropped at overrun (R176). -/
  | droppedCommandPlace
  /-- A command byte whose code is not in the table arrives (R171). -/
  | unknownCommand
  | statusRead
  | idRead
  | eventAck
  | routeSet
  | sleep
  | wake
  /-- The wake ends (R168). -/
  | wakeDone
  /-- The RESET command byte is clocked in (R177). -/
  | reset
  | templateSet
  | textLoad
  | textLoadByte
  | compose
  /-- The draft of a compose is complete (R44). -/
  | composeDone
  | composeCancel
  | composeResult
  | lineRead
  | pageClear
  | faceOpen
  | glyphPut
  | glyphBitmapByte
  | faceSeal
  | faceRetire
  | faceInfo
  | markAdd
  | markRange
  | markStyle
  | markRetire
  | markSweep
  | markClear
  | markGet
  | markAt
  | markScan
  | scanNext
  /-- Service of the mark request in service ends (R63). -/
  | serviceDone
  | answerRead
  /-- The IDLE renderer takes the first listed slot (R92). -/
  | renderStart
  /-- The last pixel write of a painted box is granted (R103). -/
  | renderDone
  | imageWindow
  | imageWrite
  | imageWriteByte
  | imageFill
  /-- The last write of a fill is granted (R112). -/
  | fillComplete
  | imageRead
  | refresh
  | displayNormal
  | displayInvert
  | blankOn
  | blankOff
  | schedSet
  /-- The frame timer expires (R155). -/
  | frameEnd
  /-- The settle timer expires (R135). -/
  | settleTimerExpiry
  | waveLoad
  | waveFrameByte
  | bandsSet
  | tempSet
  /-- The reading reaches 600 s of age (R153). -/
  | ageTimerExpiry
  | driveSet
  | supplySet
  | supplyClear
  /-- Power-good rises (R160). -/
  | pgoodRise
  /-- Power-good falls (R162). -/
  | pgoodFall
  /-- Power-good has held its level for the filter time (R162). -/
  | filterTimerExpiry
  /-- Power-good was not qualified in time (R161). -/
  | powerUpTimerExpiry
  /-- The panel has been quiet for the idle delay (R163). -/
  | idleTimerExpiry
  /-- The link takes from the FIFO a byte at which no command acts (R172). -/
  | fifoByteArrival
  /-- The arbiter grants one waiting write (R4). -/
  | arbiterWriteGrant
  deriving DecidableEq, Repr

end Sys2Proof
end

