-- ==== Sys2Proof/Decode.lean ====
section
/-! DEFINITION. The command that a word of the opcode table spells.

No row of spec/opcode_table.json gives bits, so no word spells a command. (The codes of the host's commands on the
link are bytes of the link and stand in Machine/Commands.lean; they are read by the machine itself.) -/

namespace Sys2Proof

/-- The command that a word spells by the table's bits: no row gives bits, so none. -/
def decodeTableWord (_nbits _w : Nat) : Option Instr := none

end Sys2Proof
end

