-- ==== Sys2Proof/Config.lean ====
section
/-! DEFINITION. The sizes that the manual fixes for the G460. None of them is a choice of the model.
No value of the machine is left free by the manual, so no constant without a body stands here. -/

namespace Sys2Proof.Config

/-- Columns of the panel (R1). -/
abbrev columns : Nat := 1248
/-- Rows of the panel (R1). -/
abbrev rows : Nat := 1664
/-- Pixels of one image plane (R1). -/
abbrev pixels : Nat := 2076672
/-- Rows of one zone (R9). -/
abbrev zoneRows : Nat := 208
/-- Places of the inbound FIFO (R176). -/
abbrev fifoPlaces : Nat := 256
/-- BUSY is high while the FIFO holds more bytes than this (R175). -/
abbrev busyAbove : Nat := 224
/-- Entries of the glyph directory (R17). -/
abbrev directoryEntries : Nat := 4096
/-- Blocks of the glyph pool (R19). -/
abbrev poolBlocks : Nat := 8192
/-- Bytes of one pool block (R19). -/
abbrev blockBytes : Nat := 128
/-- Characters of the text buffer (R33). -/
abbrev textLimit : Nat := 8192
/-- Greatest document base offset, 0xFFFFFFFF - 8192 (R33). -/
abbrev baseLimit : Nat := 4294959103
/-- Greatest code point (R16). -/
abbrev codeLimit : Nat := 0x10FFFF
/-- Records of the mark table (R61). -/
abbrev markLimit : Nat := 512
/-- Waiting requests of the mark unit (R62). -/
abbrev markQueueDepth : Nat := 4
/-- Requests of the pending queue (R117). -/
abbrev pendingLimit : Nat := 16
/-- Placements of one line (R48). -/
abbrev placementLimit : Nat := 255
/-- The dummy byte that opens the reply of an accepted read (R174). -/
abbrev dummyByte : Byte := 0xA5

end Sys2Proof.Config
end

