-- ==== Sys2Proof/Machine/State.lean ====
section
/-! DEFINITION. The state of the G460, block by block, and the state right after power-on.

Every block of the manual has one structure here, and `State` holds the twelve of them with the queue of commands that
wait. Outputs that follow the state at once (BUSY, INTA, INTB, the supply-enable output, MISO) are computed from it
and are not stored a second time. -/

namespace Sys2Proof.Machine

/-! ### Geometry (01_the_page_surface.md) -/

/-- An inclusive rectangle of pixels (R2). -/
structure Rect where
  x0 : Nat
  y0 : Nat
  x1 : Nat
  y1 : Nat
  deriving DecidableEq, Repr

/-- The full panel. -/
def Rect.panel : Rect := ⟨0, 0, 1247, 1663⟩

/-- Values over an index range, held as the points at which the value changes: an index takes the value of the last
point at or below it, and a default below the first point. -/
abbrev Points (α : Type) := List (Nat × α)

/-- One image plane over the pixel indices `1248 * y + x`; a pixel below the first point is 15 (R1, R8). -/
abbrev Plane := Points Level

/-- The page template (R13). -/
structure Template where
  headHeight : Nat
  bodyHeight : Nat
  footHeight : Nat
  left : Nat
  measure : Nat
  pitch : Nat
  baseline : Nat
  indent : Nat
  stretch : Nat
  noteFace : Nat
  deriving DecidableEq, Repr

/-- The reset values of the template (R13). -/
def Template.initial : Template := ⟨0, 1664, 0, 64, 1120, 48, 36, 0, 24, 15⟩

/-- The three page areas (R10). -/
inductive Area where
  | head
  | body
  | foot
  deriving DecidableEq, Repr

/-! ### Face store (02_glyph_faces.md) -/

/-- Where a face stands in its life (R16). -/
inductive FaceState where
  | empty
  | loading
  | ready
  deriving DecidableEq, Repr

/-- One record of the face table (R16). Its glyph count and its blocks in use are counts over the directory (R17). -/
structure Face where
  state : FaceState
  spaceAdvance : Nat
  hyphenCode : Nat
  missingCode : Nat
  deriving DecidableEq, Repr

/-- The record of an EMPTY face, with every field 0 (R16). -/
def Face.blank : Face := ⟨.empty, 0, 0, 0⟩

/-- One entry of the glyph directory, with its run of pool blocks (R17). -/
structure Glyph where
  face : Nat
  code : Nat
  advance : Nat
  bearing : Int
  top : Int
  width : Nat
  height : Nat
  firstBlock : Option Nat
  blockCount : Nat
  deriving DecidableEq, Repr

/-- The entry that a GLYPH PUT stream is writing, and how many bytes of its bitmap have arrived (R22, R23). -/
structure Receiving where
  face : Nat
  code : Nat
  got : Nat
  deriving DecidableEq, Repr

/-- The bytes of the glyph pool that are not 0, by byte address, addresses rising (R18, R19). -/
abbrev Memory := List Host.Cell

/-- The face store. -/
structure FaceStore where
  faces : Vector Face 16
  /-- the glyph directory, by rising (face, code) -/
  directory : List Glyph
  pool : Memory
  receiving : Option Receiving
  deriving DecidableEq, Repr

/-! ### Line setter and line table (03_setting_lines.md) -/

/-- A character of the text buffer (R33). -/
structure TextChar where
  code : Nat
  face : Nat
  deriving DecidableEq, Repr

/-- Alignments asked for and used (R41, R54). -/
inductive Align where
  | left
  | center
  | justify
  deriving DecidableEq, Repr

/-- Kinds of placement (R40). -/
inductive PlaceKind where
  | glyph
  | space
  | fixed
  | hyphen
  | void
  deriving DecidableEq, Repr

/-- One item placed on a line (R40). -/
structure Placement where
  kind : PlaceKind
  face : Nat
  code : Nat
  offset : Nat
  pen : Nat
  width : Nat
  deriving DecidableEq, Repr

/-- The flags of a line record (R39). -/
structure LineFlags where
  loose : Bool
  split : Bool
  hyphenated : Bool
  paraEnd : Bool
  missing : Bool
  deriving DecidableEq, Repr

/-- No flag raised. -/
def LineFlags.clear : LineFlags := ⟨false, false, false, false, false⟩

/-- A line record; `isSet` tells SET from EMPTY (R39). Its area and slot are its place in the line table. -/
structure LineRecord where
  isSet : Bool
  docStart : Nat
  docEnd : Nat
  align : Align
  indent : Nat
  flags : LineFlags
  placements : List Placement
  deriving DecidableEq, Repr

/-- The record of an EMPTY slot (R39). -/
def LineRecord.blank : LineRecord := ⟨false, 0, 0, .left, 0, .clear, []⟩

/-- A line slot: its record, and the signature and length of the description last painted (R39, R98). -/
structure LineSlot where
  record : LineRecord
  signature : Option (BitVec 16)
  length : Option Nat
  deriving DecidableEq, Repr

/-- An EMPTY slot that has not been rendered. -/
def LineSlot.blank : LineSlot := ⟨.blank, none, none⟩

/-- The 210 line slots in slot order: 0 is HEAD, 1 to 208 are BODY 0 to 207, 209 is FOOT (R39, R92). -/
abbrev LineTable := Vector LineSlot 210

/-- How the last compose ended (R46). -/
inductive ComposeStatus where
  | none
  | textDone
  | pageFull
  | cancelled
  deriving DecidableEq, Repr

/-- The compose result record (R46). -/
structure ComposeResult where
  status : ComposeStatus
  area : Area
  linesSet : Nat
  nextStart : Nat
  nextPara : Bool
  deriving DecidableEq, Repr

/-- A compose in flight (R42): what it was asked, its position in the text, and the draft built so far. -/
structure ComposeJob where
  area : Area
  align : Align
  startsPara : Bool
  endsPara : Bool
  start : Nat
  position : Nat
  draft : List LineRecord
  /-- whether the next line begins a paragraph (R47) -/
  nextPara : Bool
  deriving DecidableEq, Repr

/-- The line setter: text buffer with its base offset, template, compose in flight (SETTING) and compose result. -/
structure Setter where
  text : List TextChar
  base : Nat
  template : Template
  job : Option ComposeJob
  result : ComposeResult
  deriving DecidableEq, Repr

/-! ### Mark unit (04_the_mark_table.md, 05_finding_marks.md) -/

/-- Styles of a mark (R60). -/
inductive MarkStyle where
  | fill
  | underline
  | dotted
  | box
  deriving DecidableEq, Repr

/-- A mark record (R60); `start` and `stop` are its range [start, stop). -/
structure Mark where
  id : Nat
  start : Nat
  stop : Nat
  style : MarkStyle
  shade : Level
  layer : Nat
  tag : Option Nat
  muted : Bool
  onPage : Bool
  deriving DecidableEq, Repr

/-- The ten requests of the mark unit with their parameters as they arrived (R62, R80). -/
inductive MarkRequest where
  | add (id start stop : Nat) (style : MarkStyle) (shade : Level) (layer : Nat) (tag : Option Nat)
  | range (id start stop : Nat)
  | restyle (id : Nat) (style : MarkStyle) (shade : Level) (layer : Nat) (tag : Option Nat) (muted : Bool)
  | retire (id : Nat)
  | sweep (s e : Nat)
  | clear
  | get (id : Nat)
  | at (x y : Nat)
  | scan (s e : Nat)
  | next
  deriving DecidableEq, Repr

/-- The request that filled the answer slot (R77). -/
inductive AnswerKind where
  | none
  | get
  | at
  | scan
  | sweep
  deriving DecidableEq, Repr

/-- The outcome told by the answer slot (R77). -/
inductive AnswerStatus where
  | none
  | found
  | more
  | done
  deriving DecidableEq, Repr

/-- The answer slot (R77). -/
structure Answer where
  kind : AnswerKind
  status : AnswerStatus
  total : Nat
  records : List Mark
  read : Bool
  deriving DecidableEq, Repr

/-- The empty answer slot, with its read flag set (R77). -/
def Answer.blank : Answer := ⟨.none, .none, 0, [], true⟩

/-- An open scan: its range [s, e) and the key of the last record it returned (R86). -/
structure Scan where
  s : Nat
  e : Nat
  cursorStart : Nat
  cursorId : Nat
  deriving DecidableEq, Repr

/-- The mark unit. It is SERVING exactly when `serving` holds a request. -/
structure MarkUnit where
  /-- the mark table, by rising (start, id) (R61) -/
  table : List Mark
  /-- the waiting requests, oldest first (R62) -/
  queue : List MarkRequest
  serving : Option MarkRequest
  answer : Answer
  scan : Option Scan
  deriving DecidableEq, Repr

/-! ### Renderer (06_rendering_lines.md) -/

/-- Why a slot is listed (R91). -/
inductive Cause where
  | page
  | mark
  deriving DecidableEq, Repr

/-- A placement as a description holds it (R94). -/
structure DescPlacement where
  kind : PlaceKind
  face : Nat
  code : Nat
  pen : Nat
  deriving DecidableEq, Repr

/-- A segment as a description holds it (R94). -/
structure Segment where
  style : MarkStyle
  shade : Level
  x0 : Nat
  x1 : Nat
  deriving DecidableEq, Repr

/-- A note as a description holds it (R94). -/
structure DescNote where
  tag : Nat
  x : Nat
  deriving DecidableEq, Repr

/-- A line description; `isSet` is no for the empty description of an EMPTY slot (R94). -/
structure Description where
  isSet : Bool
  placements : List DescPlacement
  segments : List Segment
  notes : List DescNote
  flags : LineFlags
  deriving DecidableEq, Repr

/-- The slot being rendered, its cause, its description, and the number of box pixels already written (R92, R99). -/
structure RenderJob where
  slot : Nat
  cause : Cause
  description : Description
  written : Nat
  deriving DecidableEq, Repr

/-- The renderer. It is RENDERING exactly when `job` holds a slot. -/
structure Renderer where
  /-- the render list, by rising slot (R91) -/
  list : List (Nat × Cause)
  job : Option RenderJob
  deriving DecidableEq, Repr

/-! ### Image memory and image port (01, 07) -/

/-- The two clients that write the target plane (R4). -/
inductive Client where
  | renderer
  | port
  deriving DecidableEq, Repr

/-- The three planes, and the client that the arbiter serves first when both have writes waiting (R4). -/
structure ImageMemory where
  target : Plane
  current : Plane
  goal : Plane
  turn : Client
  deriving DecidableEq, Repr

/-- The refresh modes, in increasing strength (R116). -/
inductive Mode where
  | fast
  | gray
  | clean
  deriving DecidableEq, Repr

/-- The operation state of the image port; FILLING holds the level and the writes still to come (R106, R112). -/
inductive PortState where
  | idle
  | writing
  | filling (level : Level) (left : Nat)
  deriving DecidableEq, Repr

/-- The image port; a window mode of `none` is NONE (R106). -/
structure ImagePort where
  window : Rect
  mode : Option Mode
  position : Nat
  state : PortState
  deriving DecidableEq, Repr

/-! ### Update scheduler (08_refresh_scheduling.md) -/

/-- Where an update request came from (R116). -/
inductive Origin where
  | render
  | window
  | explicit
  | tidy
  | repair
  deriving DecidableEq, Repr

/-- An update request (R116). -/
structure Request where
  rect : Rect
  mode : Mode
  origin : Origin
  promoted : Bool
  deriving DecidableEq, Repr

/-- The fields of a DRIVING slot (R122); `enrolled` is no while the slot waits for its first frame (R154). -/
structure Driving where
  rect : Rect
  mode : Mode
  band : Nat
  length : Nat
  count : Nat
  enrolled : Bool
  deriving DecidableEq, Repr

/-- The scheduling settings (R139). -/
structure SchedSettings where
  pageMode : Mode
  markMode : Mode
  ghostLimit : Nat
  settleTime : Nat
  tidy : Bool
  deriving DecidableEq, Repr

/-- The reset values of the scheduling settings (R139). -/
def SchedSettings.initial : SchedSettings := ⟨.gray, .fast, 40, 30, true⟩

/-- The update scheduler. Entry `i` of `slots` is update slot `i + 1`; `none` is FREE. -/
structure Scheduler where
  /-- the pending queue, oldest first (R117) -/
  queue : List Request
  slots : Vector (Option Driving) 8
  ghost : Vector Nat 8
  coarse : Vector Bool 8
  panelKnown : Bool
  inverted : Bool
  blank : Bool
  /-- the settle timer: the length of the run, or `none` when IDLE (R134) -/
  settle : Option Nat
  tempHold : Bool
  waveHold : Bool
  settings : SchedSettings
  deriving DecidableEq, Repr

/-! ### Panel drive (09_waveforms_and_temperature.md) -/

/-- A waveform table (R143): its length in frames and its frame data bytes, 64 for a frame. -/
inductive Wave where
  | absent
  | loading (length : Nat) (data : List Byte)
  | ready (length : Nat) (data : List Byte)
  deriving DecidableEq, Repr

/-- The actions of one frame on a pixel (R144). -/
inductive Drive where
  | hold
  | darken
  | lighten
  deriving DecidableEq, Repr

/-- The band settings (R148). -/
structure BandSettings where
  /-- T1 to T7 -/
  thresholds : Vector Int 7
  hysteresis : Nat
  tmin : Int
  tmax : Int
  deriving DecidableEq, Repr

/-- The reset values of the band settings (R148). -/
def BandSettings.initial : BandSettings := ⟨#v[5, 10, 15, 20, 25, 30, 40], 2, 0, 50⟩

/-- The age timer of the reading; `still` is its standing still through SLEEP (R153). -/
inductive AgeTimer where
  | notRunning
  | running
  | still
  deriving DecidableEq, Repr

/-- The panel drive. Table (mode, band) is entry `8 * mode + band`. -/
structure PanelDrive where
  tables : Vector Wave 24
  bands : BandSettings
  reading : Option Int
  firstReading : Bool
  band : Nat
  age : AgeTimer
  /-- the frame period in ms (R154) -/
  period : Nat
  /-- the frame timer: the length of the frame in progress, or `none` when IDLE (R154) -/
  frame : Option Nat
  /-- the drive port: what each pixel received at the last frame end, HOLD when there is none since a reset (R155; log
  entry 15) -/
  driven : Points Drive
  deriving DecidableEq, Repr

/-! ### Supply controller and power state (10_panel_supply_and_power_states.md) -/

/-- The supply states (R159). -/
inductive SupplyState where
  | off
  | rising
  | on
  | fault
  deriving DecidableEq, Repr

/-- The supply settings (R159); the idle delay counts steps of 10 ms. -/
structure SupplySettings where
  timeout : Nat
  filterTime : Nat
  idleDelay : Nat
  deriving DecidableEq, Repr

/-- The reset values of the supply settings (R159). -/
def SupplySettings.initial : SupplySettings := ⟨40, 2, 100⟩

/-- The supply controller; a timer holds the length of its run in ms, or `none` when IDLE (time: log entry 14). -/
structure Supply where
  state : SupplyState
  powerUp : Option Nat
  filter : Option Nat
  idle : Option Nat
  settings : SupplySettings
  /-- the level of the power-good input -/
  pgood : Bool
  deriving DecidableEq, Repr

/-- The power state of the part, the wake in progress, and the start-up after power-on or the RESET pin. -/
structure Power where
  asleep : Bool
  waking : Bool
  startUp : Bool
  deriving DecidableEq, Repr

/-! ### Command link and event unit (11_the_command_link_and_events.md) -/

/-- The named commands of the link, in the order of the command code table of 11.6. -/
inductive Cmd where
  | statusRead | idRead | eventAck | routeSet | sleep | wake | reset
  | templateSet | textLoad | compose | composeCancel | composeResult | lineRead | pageClear
  | faceOpen | glyphPut | faceSeal | faceRetire | faceInfo
  | markAdd | markRange | markStyle | markRetire | markSweep | markClear
  | markGet | markAt | markScan | scanNext | answerRead
  | imageWindow | imageWrite | imageFill | imageRead
  | refresh | displayNormal | displayInvert | blankOn | blankOff | schedSet
  | waveLoad | bandsSet | tempSet | driveSet | supplySet | supplyClear
  deriving DecidableEq, Repr

/-- What the FIFO holds: bytes, and marks that keep a place among them without taking one of the 256 (R171, R176). -/
inductive FifoItem where
  | byte (kind : ByteKind) (value : Byte)
  /-- a CS rising -/
  | csRise
  /-- the place of a command byte dropped at overrun -/
  | dropped (code : Byte)
  /-- the place at which an overrun cut the command before it -/
  | cut
  deriving DecidableEq, Repr

/-- What the link knows of the command being framed as its bytes are clocked in (R171, R176). -/
inductive Framing where
  /-- no command: parameter bytes are ignored -/
  | nothing
  /-- a fixed-length command that still wants `left` parameter bytes -/
  | fixed (cmd : Cmd) (left : Nat)
  /-- a streaming command -/
  | stream (cmd : Cmd)
  /-- a read command with all its parameters: byte positions are reply positions -/
  | reply
  /-- a command with all its parameters, or one whose bytes are ignored -/
  | spent
  deriving DecidableEq, Repr

/-- Where a TEXT LOAD stream stands within a run (R35). -/
inductive TextRun where
  /-- the next byte is a face id: the stream is at a run boundary -/
  | face
  /-- the next byte is the count of the run -/
  | count (face : Nat)
  /-- `left` code points are still to come, of which `got` holds the bytes of the first -/
  | code (face left : Nat) (got : List Byte)
  deriving DecidableEq, Repr

/-- The command being taken from the FIFO (R172, R173). -/
inductive Taking where
  | nothing
  /-- a command short of its last (header) parameter byte, with the bytes that have arrived -/
  | params (cmd : Cmd) (got : List Byte)
  | text (run : TextRun)
  | glyph
  | wave (mode : Mode) (band : Nat)
  | image
  /-- parameter bytes are ignored until the next command byte -/
  | ignoring
  deriving DecidableEq, Repr

/-- The planes that IMAGE READ can name (R114). -/
inductive PlaneName where
  | target
  | current
  deriving DecidableEq, Repr

/-- The reply of the read command being framed (R174). -/
inductive Reply where
  | nothing
  /-- the read has not acted, and no reply position has been clocked -/
  | waiting
  /-- the read has not acted, and a reply position has returned a wait byte -/
  | waited
  /-- the bytes still to be returned, the dummy byte first -/
  | data (bytes : List Byte)
  /-- the reply of IMAGE READ, whose pixels are read as they are returned -/
  | image (dummySent : Bool) (plane : PlaneName) (next : Nat)
  deriving DecidableEq, Repr

/-- The last-refusal record: command code and reason code, 0 and 0 when none (R178). -/
structure RefusalRecord where
  code : Byte
  reason : Byte
  deriving DecidableEq, Repr

/-- The command link. -/
structure Link where
  fifo : List FifoItem
  framing : Framing
  taking : Taking
  reply : Reply
  /-- the byte shifted out on MISO with the byte last clocked in -/
  miso : Byte
  /-- CS is low: MISO is driven -/
  selected : Bool
  lastRefusal : RefusalRecord
  deriving DecidableEq, Repr

/-- The event unit: the flags and the two masks in the bit order of R179; bits 14 and 15 are 0. -/
structure Events where
  flags : BitVec 16
  maskA : BitVec 16
  maskB : BitVec 16
  deriving DecidableEq, Repr

/-! ### The whole part -/

/-- The state of the G460, with the commands that wait to be taken, first in first out. -/
structure State where
  link : Link
  events : Events
  faces : FaceStore
  setter : Setter
  lines : LineTable
  marks : MarkUnit
  renderer : Renderer
  image : ImageMemory
  port : ImagePort
  sched : Scheduler
  drive : PanelDrive
  supply : Supply
  power : Power
  pending : List Instr
  deriving DecidableEq, Repr

/-- Reasons for the machine to stop with a fault. The manual gives the part an outcome in every case of wrong,
untimely or colliding input (00_scope.md, section 5), so no meaning raises one. -/
inductive Fault where
  /-- Raised by no meaning; it stands so that the type is not without constructors (safe: it is never answered). -/
  | unreachable
  deriving DecidableEq, Repr

/-- Reasons for the machine to have no outcome for a command. -/
inductive Refusal where
  /-- Raised by an arm of `exec` for a row that has no meaning yet; every row has one, so it is never answered
  (safe: it would stop the machine where the part goes on). -/
  | notModelled (mnemonic : String)
  deriving DecidableEq, Repr

/-! ### Reset values -/

/-- The link after power-on and the RESET pin (R177). -/
def Link.initial : Link := ⟨[], .nothing, .nothing, .nothing, 0, false, ⟨0, 0⟩⟩

/-- The event unit after power-on and the RESET pin (R177). -/
def Events.initial : Events := ⟨0, 0, 0⟩

/-- The face store after power-on (R32). -/
def FaceStore.initial : FaceStore := ⟨Vector.replicate 16 .blank, [], [], none⟩

/-- The compose result after every reset (R59). -/
def ComposeResult.initial : ComposeResult := ⟨.none, .head, 0, 0, false⟩

/-- The line setter after power-on and the RESET pin (R13, R59). -/
def Setter.initial : Setter := ⟨[], 0, .initial, none, .initial⟩

/-- The line table after every reset (R59). -/
def LineTable.initial : LineTable := Vector.replicate 210 .blank

/-- The mark unit after power-on and the RESET pin (R75, R90). -/
def MarkUnit.initial : MarkUnit := ⟨[], [], none, .blank, none⟩

/-- The renderer after every reset (R105). -/
def Renderer.initial : Renderer := ⟨[], none⟩

/-- The image memory after power-on: every pixel of every plane 15 (R8); the renderer's turn (DESIGN CHOICE, unsafe: log
entry 8). -/
def ImageMemory.initial : ImageMemory := ⟨[], [], [], .renderer⟩

/-- The image port after power-on and the RESET pin (R106). -/
def ImagePort.initial : ImagePort := ⟨.panel, none, 0, .idle⟩

/-- The update scheduler after power-on and the RESET pin (R141). -/
def Scheduler.initial : Scheduler :=
  ⟨[], Vector.replicate 8 none, Vector.replicate 8 0, Vector.replicate 8 false, false, false, false, none, false,
    false, .initial⟩

/-- The panel drive after power-on (R158). -/
def PanelDrive.initial : PanelDrive :=
  ⟨Vector.replicate 24 .absent, .initial, none, true, 0, .notRunning, 12, none, []⟩

/-- The supply controller after power-on, with a power-good input at `level` (R169). -/
def Supply.initial (level : Bool) : Supply := ⟨.off, none, none, none, .initial, level⟩

/-- The power state after power-on and the RESET pin, start-up under way (R169). -/
def Power.initial : Power := ⟨false, false, true⟩

/-- The part right after power-on: every block in its power-on state, start-up not yet done, power-good low
and CS high (DESIGN CHOICE, unsafe: log entry 12). -/
def State.reset : State where
  link := .initial
  events := .initial
  faces := .initial
  setter := .initial
  lines := .initial
  marks := .initial
  renderer := .initial
  image := .initial
  port := .initial
  sched := .initial
  drive := .initial
  supply := .initial false
  power := .initial
  pending := []

end Sys2Proof.Machine
end

