-- ==== Sys2Proof/Machine/Commands.lean ====
section
/-! DEFINITION. The command code table of 11.6: codes, parameter counts, and which commands read or stream. -/

namespace Sys2Proof.Machine

/-- The code of a command (11.6). -/
def Cmd.code : Cmd → Byte
  | .statusRead => 0x01
  | .idRead => 0x02
  | .eventAck => 0x03
  | .routeSet => 0x04
  | .sleep => 0x05
  | .wake => 0x06
  | .reset => 0x07
  | .templateSet => 0x10
  | .textLoad => 0x11
  | .compose => 0x12
  | .composeCancel => 0x13
  | .composeResult => 0x14
  | .lineRead => 0x15
  | .pageClear => 0x16
  | .faceOpen => 0x20
  | .glyphPut => 0x21
  | .faceSeal => 0x22
  | .faceRetire => 0x23
  | .faceInfo => 0x24
  | .markAdd => 0x30
  | .markRange => 0x31
  | .markStyle => 0x32
  | .markRetire => 0x33
  | .markSweep => 0x34
  | .markClear => 0x35
  | .markGet => 0x38
  | .markAt => 0x39
  | .markScan => 0x3A
  | .scanNext => 0x3B
  | .answerRead => 0x3C
  | .imageWindow => 0x40
  | .imageWrite => 0x41
  | .imageFill => 0x42
  | .imageRead => 0x43
  | .refresh => 0x50
  | .displayNormal => 0x51
  | .displayInvert => 0x52
  | .blankOn => 0x53
  | .blankOff => 0x54
  | .schedSet => 0x55
  | .waveLoad => 0x60
  | .bandsSet => 0x61
  | .tempSet => 0x62
  | .driveSet => 0x63
  | .supplySet => 0x70
  | .supplyClear => 0x71

/-- The parameter bytes of a command; for a streaming command, of its header (11.6). -/
def Cmd.params : Cmd → Nat
  | .statusRead => 0
  | .idRead => 0
  | .eventAck => 2
  | .routeSet => 4
  | .sleep => 0
  | .wake => 0
  | .reset => 0
  | .templateSet => 15
  | .textLoad => 4
  | .compose => 6
  | .composeCancel => 0
  | .composeResult => 0
  | .lineRead => 2
  | .pageClear => 1
  | .faceOpen => 8
  | .glyphPut => 9
  | .faceSeal => 1
  | .faceRetire => 1
  | .faceInfo => 1
  | .markAdd => 14
  | .markRange => 10
  | .markStyle => 7
  | .markRetire => 2
  | .markSweep => 8
  | .markClear => 0
  | .markGet => 2
  | .markAt => 4
  | .markScan => 8
  | .scanNext => 0
  | .answerRead => 0
  | .imageWindow => 9
  | .imageWrite => 0
  | .imageFill => 4
  | .imageRead => 1
  | .refresh => 9
  | .displayNormal => 0
  | .displayInvert => 0
  | .blankOn => 0
  | .blankOff => 0
  | .schedSet => 5
  | .waveLoad => 3
  | .bandsSet => 10
  | .tempSet => 1
  | .driveSet => 1
  | .supplySet => 3
  | .supplyClear => 0

/-- How the link frames a command: writes, reads with a reply, and streams (R171, R173, R174). -/
inductive CmdKind where
  | write
  | read
  | stream
  deriving DecidableEq, Repr

/-- The framing of a command (11.6). -/
def Cmd.kind : Cmd → CmdKind
  | .statusRead | .idRead | .composeResult | .lineRead | .faceInfo | .answerRead | .imageRead => .read
  | .textLoad | .glyphPut | .imageWrite | .waveLoad => .stream
  | _ => .write

/-- Every command of the table, in its order. -/
def Cmd.all : List Cmd :=
  [.statusRead, .idRead, .eventAck, .routeSet, .sleep, .wake, .reset, .templateSet,
   .textLoad, .compose, .composeCancel, .composeResult, .lineRead, .pageClear, .faceOpen, .glyphPut,
   .faceSeal, .faceRetire, .faceInfo, .markAdd, .markRange, .markStyle, .markRetire, .markSweep,
   .markClear, .markGet, .markAt, .markScan, .scanNext, .answerRead, .imageWindow, .imageWrite,
   .imageFill, .imageRead, .refresh, .displayNormal, .displayInvert, .blankOn, .blankOff, .schedSet,
   .waveLoad, .bandsSet, .tempSet, .driveSet, .supplySet, .supplyClear]

/-- The command whose code is the byte; none for a code that is not in the table (R171). -/
def Cmd.ofCode (b : Byte) : Option Cmd := Cmd.all.find? fun c => c.code == b

/-- The five commands that the link takes in SLEEP (R167). -/
def Cmd.takenAsleep : Cmd → Bool
  | .wake | .statusRead | .eventAck | .idRead | .reset => true
  | _ => false

end Sys2Proof.Machine
end

