-- ==== Sys2Proof/Machine/Bytes.lean ====
section
/-! DEFINITION. Byte order and signs on the link: multi-byte fields most significant byte first, signed fields in
two's complement (00_scope.md, section 6). -/

namespace Sys2Proof.Machine

/-- The number carried by bytes, most significant byte first. -/
def fromBytes (bs : List Byte) : Nat := bs.foldl (fun n b => 256 * n + b.toNat) 0

/-- Field of `len` bytes that begins at byte `at_` of the parameters. -/
def field (bs : List Byte) (at_ len : Nat) : Nat := fromBytes ((bs.drop at_).take len)

/-- Signed field of one byte. -/
def signedField (bs : List Byte) (at_ : Nat) : Int :=
  let n := field bs at_ 1
  if n < 128 then (n : Int) else (n : Int) - 256

/-- One byte of a number. -/
def byteOf (n : Nat) : Byte := BitVec.ofNat 8 n

/-- Two bytes, most significant byte first. -/
def twoBytes (n : Nat) : List Byte := [byteOf (n / 256), byteOf n]

/-- Three bytes, most significant byte first. -/
def threeBytes (n : Nat) : List Byte := [byteOf (n / 65536), byteOf (n / 256), byteOf n]

/-- Four bytes, most significant byte first. -/
def fourBytes (n : Nat) : List Byte := [byteOf (n / 16777216), byteOf (n / 65536), byteOf (n / 256), byteOf n]

/-- One byte of a yes or no. -/
def boolByte (b : Bool) : Byte := if b then 1 else 0

/-- The pixel in the high four bits of a byte, the first of its pair (R18, R109). -/
def highPixel (b : Byte) : Level := Fin.ofNat 16 (b.toNat / 16)

/-- The pixel in the low four bits of a byte, the second of its pair. -/
def lowPixel (b : Byte) : Level := Fin.ofNat 16 b.toNat

/-- The byte that carries two pixels, the first in the high four bits. -/
def pixelByte (first second : Level) : Byte := byteOf (16 * first.val + second.val)

end Sys2Proof.Machine
end

