-- ==== Sys2Proof/Machine/Flags.lean ====
section
/-! DEFINITION. The event unit: the 14 sticky flags, the two interrupt lines, and the last-refusal record
(11_the_command_link_and_events.md, R178 to R180). -/

namespace Sys2Proof.Machine

/-- The bit numbers of the event flags (R179). -/
inductive Event where
  | composeDone | renderIdle | refreshDone | panelQuiet | answerReady | answerLost | supplyFault | tempRange
  | tempStale | noWaveform | queueSqueeze | commandRefused | linkOverrun | textTruncated
  deriving DecidableEq, Repr

/-- The place of a flag in the flag word (R179). -/
def Event.bit : Event → Nat
  | .composeDone => 0
  | .renderIdle => 1
  | .refreshDone => 2
  | .panelQuiet => 3
  | .answerReady => 4
  | .answerLost => 5
  | .supplyFault => 6
  | .tempRange => 7
  | .tempStale => 8
  | .noWaveform => 9
  | .queueSqueeze => 10
  | .commandRefused => 11
  | .linkOverrun => 12
  | .textTruncated => 13

/-- The flag word with one bit set. -/
def Event.mask (e : Event) : BitVec 16 := BitVec.ofNat 16 (2 ^ e.bit)

/-- A flag is raised and stays raised; raising a raised flag changes nothing (R179). -/
def State.raise (e : Event) (s : State) : State :=
  { s with events := { s.events with flags := s.events.flags ||| e.mask } }

/-- The flag is raised. -/
def State.raised (e : Event) (s : State) : Bool := s.events.flags.getLsbD e.bit

/-- The mask of bits 0 to 13: the flags that exist (R179, R180). -/
def eventBits : BitVec 16 := 0x3FFF

/-- INTA is driven low while a flag routed to it is raised; `true` is the low (asserted) level (R180). -/
def State.inta (s : State) : Bool := decide (s.events.flags &&& s.events.maskA ≠ 0)

/-- INTB follows its own mask (R180). -/
def State.intb (s : State) : Bool := decide (s.events.flags &&& s.events.maskB ≠ 0)

/-- The reasons of a refusal (R178). -/
inductive Reason where
  | unknown | short | badParam | busy | inUse | notFound | duplicate | full | noSpace | wrongState | asleep
  deriving DecidableEq, Repr

/-- The code of a reason (R178). -/
def Reason.code : Reason → Byte
  | .unknown => 1
  | .short => 2
  | .badParam => 3
  | .busy => 4
  | .inUse => 5
  | .notFound => 6
  | .duplicate => 7
  | .full => 8
  | .noSpace => 9
  | .wrongState => 10
  | .asleep => 11

/-- A refusal: the last-refusal record names the command and the reason, and COMMAND_REFUSED is raised (R178). -/
def State.refuse (code : Byte) (reason : Reason) (s : State) : State :=
  { s with link := { s.link with lastRefusal := ⟨code, reason.code⟩ } }.raise .commandRefused

end Sys2Proof.Machine
end

