-- ==== Sys2Proof/Machine/Memory.lean ====
section
/-! DEFINITION. The glyph pool's bytes: a list of (address, byte) pairs in one canonical form.

Byte `a` of the pool is byte `a mod 128` of block `a / 128` (R18, R19). An unlisted address reads as 0x00. No bitmap
is read before all of its bytes are written (R23, R24, R30), so that value cannot be seen
(DESIGN CHOICE, safe: log entry 7). -/

namespace Sys2Proof.Machine

/-- What an unlisted address of the pool reads as. -/
def Memory.unlisted : Byte := 0

/-- The byte at an address. -/
def Memory.read : Memory → Nat → Byte
  | [], _ => Memory.unlisted
  | (k, v) :: rest, a => if a = k then v else Memory.read rest a

/-- The memory with one byte written, in canonical form. -/
def Memory.write (a : Nat) (b : Byte) : Memory → Memory
  | [] => if b = Memory.unlisted then [] else [(a, b)]
  | (k, v) :: rest =>
    if a < k then (if b = Memory.unlisted then (k, v) :: rest else (a, b) :: (k, v) :: rest)
    else if a = k then (if b = Memory.unlisted then rest else (a, b) :: rest)
    else (k, v) :: Memory.write a b rest

/-- Strictly rising addresses from `lo` up, and no entry equal to what an unlisted address reads as. -/
def Memory.wfFrom (lo : Nat) : Memory → Bool
  | [] => true
  | (k, v) :: rest => decide (lo ≤ k) && decide (v ≠ Memory.unlisted) && Memory.wfFrom (k + 1) rest

/-- The canonical form of a memory. -/
def Memory.wf (m : Memory) : Bool := Memory.wfFrom 0 m

end Sys2Proof.Machine
end

