-- ==== Sys2Proof/Machine/Faces.lean ====
section
/-! DEFINITION. Operations of the face store: glyph lookup, the pool's runs, and the bitmaps (02_glyph_faces.md). -/

namespace Sys2Proof.Machine

/-- The record of a face number. -/
def FaceStore.face (fs : FaceStore) (f : Nat) : Face := look fs.faces f .blank

/-- The directory entry with a key, if there is one (R17). -/
def FaceStore.entry (fs : FaceStore) (face code : Nat) : Option Glyph :=
  fs.directory.find? fun g => g.face == face && g.code == code

/-- Full lookup: the entry of the code, or of the face's missing code, or VOID, which is `none` (R29). -/
def FaceStore.fullLookup (fs : FaceStore) (face code : Nat) : Option Glyph :=
  match fs.entry face code with
  | some g => some g
  | none => fs.entry face (fs.face face).missingCode

/-- Exact lookup: the entry of the code in a READY face, or absent (R30). -/
def FaceStore.exactLookup (fs : FaceStore) (face code : Nat) : Option Glyph :=
  if (fs.face face).state = .ready then fs.entry face code else none

/-- The glyph count of a face (R17). -/
def FaceStore.glyphCount (fs : FaceStore) (face : Nat) : Nat :=
  (fs.directory.filter fun g => g.face == face).length

/-- The blocks in use of a face (R17). -/
def FaceStore.blocksInUse (fs : FaceStore) (face : Nat) : Nat :=
  ((fs.directory.filter fun g => g.face == face).map Glyph.blockCount).sum

/-- The bytes of a bitmap (R18). -/
def bitmapBytes (width height : Nat) : Nat := (width * height + 1) / 2

/-- The pool blocks of a bitmap (R18). -/
def bitmapBlocks (width height : Nat) : Nat := (bitmapBytes width height + 127) / 128

/-- A run put at its place among runs that rise by first block. -/
def insertRun (run : Nat × Nat) : List (Nat × Nat) → List (Nat × Nat)
  | [] => [run]
  | r :: rest => if run.1 < r.1 then run :: r :: rest else r :: insertRun run rest

/-- The runs that the directory's entries hold, as (first block, block count), rising by first block (R19). -/
def FaceStore.runs (fs : FaceStore) : List (Nat × Nat) :=
  fs.directory.foldr
    (fun g rs => match g.firstBlock with
      | some b => insertRun (b, g.blockCount) rs
      | none => rs) []

/-- The lowest block from `start` up at which `k` free blocks follow one another, past the given runs (R19). -/
def firstFit (k : Nat) : Nat → List (Nat × Nat) → Option Nat
  | start, [] => if start + k ≤ Config.poolBlocks then some start else none
  | start, (b, n) :: rest => if start + k ≤ b then some start else firstFit k (max start (b + n)) rest

/-- The longest stretch of free blocks from `start` up, past the given runs (R19). -/
def largestGap : Nat → List (Nat × Nat) → Nat
  | start, [] => Config.poolBlocks - start
  | start, (b, n) :: rest => max (b - start) (largestGap (max start (b + n)) rest)

/-- The first free run of `k` blocks, looking at every block from 0 upward (R19). -/
def FaceStore.freeRun (fs : FaceStore) (k : Nat) : Option Nat := firstFit k 0 fs.runs

/-- The free count of the pool (R19). -/
def FaceStore.freeBlocks (fs : FaceStore) : Nat :=
  Config.poolBlocks - (fs.runs.map Prod.snd).sum

/-- The largest free run of the pool (R19). -/
def FaceStore.largestFreeRun (fs : FaceStore) : Nat := largestGap 0 fs.runs

/-- The directory without the entry of a key (R17). -/
def removeGlyph (face code : Nat) (dir : List Glyph) : List Glyph :=
  dir.filter fun g => !(g.face == face && g.code == code)

/-- An entry put at its place by (face, code) in a directory that does not hold its key. -/
def placeGlyph (g : Glyph) : List Glyph → List Glyph
  | [] => [g]
  | h :: rest =>
    if g.face < h.face ∨ (g.face = h.face ∧ g.code < h.code) then g :: h :: rest else h :: placeGlyph g rest

/-- The glyph that is receiving is discarded: its entry leaves the directory and its run is free (R24). -/
def FaceStore.discardReceiving (fs : FaceStore) : FaceStore :=
  match fs.receiving with
  | none => fs
  | some r => { fs with directory := removeGlyph r.face r.code fs.directory, receiving := none }

/-- The coverage of bitmap column i, row j of an entry (R18). -/
def FaceStore.coverage (fs : FaceStore) (g : Glyph) (i j : Nat) : Level :=
  match g.firstBlock with
  | none => 0
  | some b =>
    let k := j * g.width + i
    let cell := fs.pool.read (Config.blockBytes * b + k / 2)
    if k % 2 = 0 then highPixel cell else lowPixel cell

/-- A face is given a record. -/
def FaceStore.setFace (fs : FaceStore) (f : Nat) (r : Face) : FaceStore := { fs with faces := put fs.faces f r }

/-- A face becomes EMPTY and all its glyphs are freed (R27). -/
def FaceStore.emptyFace (fs : FaceStore) (f : Nat) : FaceStore :=
  { fs with faces := put fs.faces f .blank, directory := fs.directory.filter fun g => !(g.face == f) }

/-- The face store after a RESET command: READY faces keep their glyphs in their places; LOADING faces are EMPTY (R32). -/
def FaceStore.afterResetCommand (fs : FaceStore) : FaceStore :=
  { fs with
    faces := mapAll (fun r => if r.state = .ready then r else .blank) fs.faces
    directory := fs.directory.filter fun g => (fs.face g.face).state = .ready
    receiving := none }

/-- A GLYPH PUT stream ends: a glyph still receiving is discarded and recorded SHORT (R24). -/
def State.endGlyphStream (s : State) : State :=
  match s.faces.receiving with
  | none => s
  | some _ => { s with faces := s.faces.discardReceiving }.refuse Cmd.glyphPut.code .short

end Sys2Proof.Machine
end

