-- ==== Sys2Proof/Machine/Geometry.lean ====
section
/-! DEFINITION. Rectangles, zones, page areas and line boxes (01_the_page_surface.md). -/

namespace Sys2Proof.Machine

/-- A intersects B: some pixel lies in both (R2). -/
def Rect.intersects (a b : Rect) : Bool :=
  a.x0 ≤ b.x1 && b.x0 ≤ a.x1 && a.y0 ≤ b.y1 && b.y0 ≤ a.y1

/-- A shares an edge with B: they touch along a side and do not intersect (R2). -/
def Rect.sharesEdge (a b : Rect) : Bool :=
  !a.intersects b &&
    ((a.y0 ≤ b.y1 && b.y0 ≤ a.y1 && (a.x1 + 1 == b.x0 || b.x1 + 1 == a.x0)) ||
     (a.x0 ≤ b.x1 && b.x0 ≤ a.x1 && (a.y1 + 1 == b.y0 || b.y1 + 1 == a.y0)))

/-- A has the same column span as B (R2). -/
def Rect.sameColumns (a b : Rect) : Bool := a.x0 == b.x0 && a.x1 == b.x1

/-- A has the same row span as B (R2). -/
def Rect.sameRows (a b : Rect) : Bool := a.y0 == b.y0 && a.y1 == b.y1

/-- A lies wholly inside B (R2). -/
def Rect.inside (a b : Rect) : Bool :=
  b.x0 ≤ a.x0 && a.x1 ≤ b.x1 && b.y0 ≤ a.y0 && a.y1 ≤ b.y1

/-- The bounding box of A and B (R2). -/
def Rect.bounding (a b : Rect) : Rect :=
  ⟨min a.x0 b.x0, min a.y0 b.y0, max a.x1 b.x1, max a.y1 b.y1⟩

/-- The pixel count of a rectangle (R2). -/
def Rect.pixels (r : Rect) : Nat := (r.x1 - r.x0 + 1) * (r.y1 - r.y0 + 1)

/-- The pixel (x, y) lies in the rectangle. -/
def Rect.holds (r : Rect) (x y : Nat) : Bool :=
  r.x0 ≤ x && x ≤ r.x1 && r.y0 ≤ y && y ≤ r.y1

/-- A column clamped to the panel (R1). -/
def clampX (x : Nat) : Nat := min x 1247

/-- A row clamped to the panel (R1). -/
def clampY (y : Nat) : Nat := min y 1663

/-- The index of a pixel in an image plane. -/
def pixelIndex (x y : Nat) : Nat := Config.columns * y + x

/-- The rectangle of zone z (R9). -/
def zoneRect (z : Nat) : Rect := ⟨0, Config.zoneRows * z, 1247, Config.zoneRows * z + 207⟩

/-- The rectangle touches zone z: some row of it belongs to z (R9). -/
def Rect.touchesZone (r : Rect) (z : Nat) : Bool :=
  r.y0 / Config.zoneRows ≤ z && z ≤ r.y1 / Config.zoneRows

/-- The full-width union of the zones a rectangle touches (R9). -/
def Rect.zoneUnion (r : Rect) : Rect :=
  ⟨0, Config.zoneRows * (r.y0 / Config.zoneRows), 1247, Config.zoneRows * (r.y1 / Config.zoneRows) + 207⟩

/-- The index ranges [lo, hi) whose pixels make up the rectangle: one for each row, or a single one where full rows
follow one another without a gap. -/
def Rect.ranges (r : Rect) : List (Nat × Nat) :=
  if r.x0 = 0 ∧ r.x1 = 1247 then [(pixelIndex 0 r.y0, pixelIndex 0 (r.y1 + 1))]
  else (List.range (r.y1 + 1 - r.y0)).map fun k =>
    (pixelIndex r.x0 (r.y0 + k), pixelIndex r.x1 (r.y0 + k) + 1)

/-- The line slot that holds the first line of an area: its place in slot order (R39). -/
def Area.firstSlot : Area → Nat
  | .head => 0
  | .body => 1
  | .foot => 209

/-- The number of line slots of an area (R39). -/
def Area.slotCount : Area → Nat
  | .head => 1
  | .body => 208
  | .foot => 1

/-- The area of a line slot. -/
def slotArea (slot : Nat) : Area :=
  if slot = 0 then .head else if slot ≤ 208 then .body else .foot

/-- The slot belongs to the area. -/
def Area.holdsSlot (a : Area) (slot : Nat) : Bool :=
  a.firstSlot ≤ slot && slot < a.firstSlot + a.slotCount

/-- The line capacity of an area under a template (R11). -/
def Template.capacity (t : Template) : Area → Nat
  | .head => if t.headHeight = 0 then 0 else 1
  | .body => t.bodyHeight / t.pitch
  | .foot => if t.footHeight = 0 then 0 else 1

/-- The top row of a slot's line box, if the slot has one under the template (R11). -/
def Template.boxTop (t : Template) (slot : Nat) : Option Nat :=
  if slot = 0 then
    if t.headHeight = 0 then none else some (t.headHeight - t.pitch)
  else if slot ≤ 208 then
    if slot - 1 < t.bodyHeight / t.pitch then some (t.headHeight + (slot - 1) * t.pitch) else none
  else if slot = 209 then
    if t.footHeight = 0 then none else some (t.headHeight + t.bodyHeight)
  else none

/-- The line box of a slot whose top row is `top`: P rows across the full width (R11). -/
def Template.boxRect (t : Template) (top : Nat) : Rect := ⟨0, top, 1247, top + t.pitch - 1⟩

/-- The slot whose line box contains row y, if any; line boxes do not overlap (R11, R82). -/
def Template.slotAtRow (t : Template) (y : Nat) : Option Nat :=
  (List.range 210).find? fun slot =>
    match t.boxTop slot with
    | some top => top ≤ y && y < top + t.pitch
    | none => false

/-- A template meets every range of R13. -/
def Template.legal (t : Template) : Bool :=
  8 ≤ t.pitch && t.pitch ≤ 255 &&
  (t.headHeight == 0 || (t.pitch ≤ t.headHeight && t.headHeight ≤ 1664)) &&
  (t.pitch ≤ t.bodyHeight && t.bodyHeight ≤ 1664) &&
  (t.footHeight == 0 || (t.pitch ≤ t.footHeight && t.footHeight ≤ 1664)) &&
  t.left ≤ 1184 && 64 ≤ t.measure && t.measure ≤ 1248 && t.left + t.measure ≤ 1248 &&
  1 ≤ t.baseline && t.baseline ≤ t.pitch - 1 &&
  t.indent ≤ 255 && t.indent < t.measure && t.stretch ≤ 255 && t.noteFace ≤ 15 &&
  t.headHeight + t.bodyHeight + t.footHeight == 1664

end Sys2Proof.Machine
end

