-- ==== Sys2Proof/Machine/RenderList.lean ====
section
/-! DEFINITION. The render list (06_rendering_lines.md, R91): line slots that wait, each once, by slot order. -/

namespace Sys2Proof.Machine

/-- The cause of an entry that is listed again: PAGE prevails over MARK (R91). -/
def Cause.join : Cause → Cause → Cause
  | .mark, .mark => .mark
  | _, _ => .page

/-- A slot enters the list with a cause; a slot already listed keeps one entry (R91). -/
def listSlot (slot : Nat) (cause : Cause) : List (Nat × Cause) → List (Nat × Cause)
  | [] => [(slot, cause)]
  | (k, c) :: rest =>
    if slot < k then (slot, cause) :: (k, c) :: rest
    else if slot = k then (k, c.join cause) :: rest
    else (k, c) :: listSlot slot cause rest

/-- Every slot that meets a test enters the list with a cause. -/
def listSlots (test : Nat → Bool) (cause : Cause) (list : List (Nat × Cause)) : List (Nat × Cause) :=
  (List.range 210).foldl (fun l slot => if test slot then listSlot slot cause l else l) list

/-- The slot of the table with a number. -/
def LineTable.slot (t : LineTable) (i : Nat) : LineSlot := look t i .blank

end Sys2Proof.Machine
end

