-- ==== Sys2Proof/Machine/Marks.lean ====
section
/-! DEFINITION. The mark table, the lines a mark touches, segments and notes, and the ten requests at their service
(04_the_mark_table.md, 05_finding_marks.md). -/

namespace Sys2Proof.Machine

/-! ### Order and ranges -/

/-- The key (start, id) of one mark stands before that of another (R61). -/
def Mark.before (a b : Mark) : Bool := a.start < b.start || (a.start == b.start && a.id < b.id)

/-- A record put at the place of its key (R61). -/
def insertMark (m : Mark) : List Mark → List Mark
  | [] => [m]
  | h :: rest => if m.before h then m :: h :: rest else h :: insertMark m rest

/-- The record with an id, if the table holds one. -/
def findMark (id : Nat) (table : List Mark) : Option Mark := table.find? fun m => m.id == id

/-- The table without the record of an id. -/
def removeMark (id : Nat) (table : List Mark) : List Mark := table.filter fun m => !(m.id == id)

/-- Two ranges [a, b) and [s, e) intersect (R73). -/
def rangesMeet (a b s e : Nat) : Bool := a < e && s < b

/-- The line is SET and its document range meets [s, e) (R73). -/
def LineSlot.meets (l : LineSlot) (s e : Nat) : Bool :=
  l.record.isSet && rangesMeet l.record.docStart l.record.docEnd s e

/-- The range meets the document range of some SET line (R74). -/
def rangeOnPage (lines : LineTable) (s e : Nat) : Bool := lines.toList.any fun l => l.meets s e

/-- The mark with its on-page flag worked out against a line table (R74). -/
def Mark.onLines (lines : LineTable) (m : Mark) : Mark := { m with onPage := rangeOnPage lines m.start m.stop }

/-! ### Segments and notes -/

/-- The placements of a line that a mark covers (R83). -/
def Mark.covered (m : Mark) (r : LineRecord) : List Placement :=
  if r.isSet then r.placements.filter fun p => m.start ≤ p.offset && p.offset < m.stop else []

/-- The columns x0 to x1 of a mark's segment in a line, if it holds any column (R83, R95). -/
def Mark.span (m : Mark) (r : LineRecord) : Option (Nat × Nat) :=
  match (m.covered r).head?, (m.covered r).getLast? with
  | some first, some last =>
    if first.pen < last.pen + last.width then some (first.pen, last.pen + last.width - 1) else none
  | _, _ => none

/-- The highest document offset of a mark's covered placements in a line. -/
def Mark.lastOffset (m : Mark) (r : LineRecord) : Option Nat :=
  ((m.covered r).map Placement.offset).foldl
    (fun best o => match best with
      | none => some o
      | some b => some (max b o)) none

/-- The first slot, in slot order, that holds the placement of highest offset covered by the mark; `slot` is the
number of the first line of the list and `best` the slot and offset found before it (R84, R96). -/
def Mark.lastSlotFrom (m : Mark) : List LineSlot → Nat → Option (Nat × Nat) → Option (Nat × Nat)
  | [], _, best => best
  | l :: rest, slot, best =>
    let best' := match m.lastOffset l.record, best with
      | none, b => b
      | some o, none => some (slot, o)
      | some o, some (k, b) => if b < o then some (slot, o) else some (k, b)
    m.lastSlotFrom rest (slot + 1) best'

/-- The slot beside which the note of a mark stands (R84, R96). -/
def Mark.noteSlot (m : Mark) (lines : LineTable) : Option Nat :=
  (m.lastSlotFrom lines.toList 0 none).map Prod.fst

/-- A mark put at its place by id. -/
def insertById (m : Mark) : List Mark → List Mark
  | [] => [m]
  | h :: rest => if m.id < h.id then m :: h :: rest else h :: insertById m rest

/-- The marks whose notes stand beside a slot, by rising id (R84). -/
def notesBeside (table : List Mark) (lines : LineTable) (slot : Nat) : List Mark :=
  (table.filter fun m => !m.muted && m.tag.isSome && m.noteSlot lines == some slot).foldr insertById []

/-- A note beside a line: its mark, its glyph and its starting x (R84, R96). -/
structure Note where
  mark : Mark
  glyph : Glyph
  x : Nat
  deriving DecidableEq, Repr

/-- The notes placed from a starting x on: an absent glyph makes no note and takes no width (R84, R96). -/
def placeNotes (fs : FaceStore) (noteFace : Nat) : Nat → List Mark → List Note
  | _, [] => []
  | x, m :: rest =>
    match fs.exactLookup noteFace (0xE000 + m.tag.getD 0) with
    | none => placeNotes fs noteFace x rest
    | some g => ⟨m, g, x⟩ :: placeNotes fs noteFace (x + g.advance) rest

/-- The notes beside a slot, left to right (R84, R96). -/
def lineNotes (fs : FaceStore) (t : Template) (table : List Mark) (lines : LineTable) (slot : Nat) : List Note :=
  placeNotes fs t.noteFace (t.left + t.measure + 8) (notesBeside table lines slot)

/-- The note's box holds column x: from its starting x over its advance, clipped at column 1247 (R84). -/
def Note.holds (n : Note) (x : Nat) : Bool := n.x ≤ x && x < n.x + n.glyph.advance && x ≤ 1247

/-! ### Requests at arrival -/

/-- The fields of a request lie in their ranges (R62, R80). Styles, shades, tags and flags are judged as bytes where
the request is made (Operands.lean); here the numbers of R62's table are judged. -/
def MarkRequest.legal : MarkRequest → Bool
  | .add id start stop _ _ layer _ =>
    1 ≤ id && id ≤ 65535 && start < stop && stop - start ≤ 65535 && layer ≤ 3
  | .range id start stop => 1 ≤ id && id ≤ 65535 && start < stop && stop - start ≤ 65535
  | .restyle id _ _ layer _ _ => 1 ≤ id && id ≤ 65535 && layer ≤ 3
  | .retire id => 1 ≤ id && id ≤ 65535
  | .sweep s e => s < e
  | .clear => true
  | .get id => 1 ≤ id && id ≤ 65535
  | .at _ _ => true
  | .scan s e => s < e
  | .next => true

/-- While the unit is IDLE and a request waits, the oldest one leaves the queue and is in service (R63). -/
def MarkUnit.takeNext (u : MarkUnit) : MarkUnit :=
  match u.serving, u.queue with
  | none, r :: rest => { u with serving := some r, queue := rest }
  | _, _ => u

/-- A request that passed its checks joins the queue at its tail, and an IDLE unit takes the oldest one (R62, R63). -/
def MarkUnit.join (u : MarkUnit) (r : MarkRequest) : MarkUnit :=
  { u with queue := u.queue ++ [r] }.takeNext

/-! ### Answers -/

/-- A fill of the answer slot (R78). -/
def State.fillAnswer (kind : AnswerKind) (status : AnswerStatus) (total : Nat) (records : List Mark) (s : State) :
    State :=
  let s1 := if s.marks.answer.read then s else s.raise .answerLost
  { s1 with marks := { s1.marks with answer := ⟨kind, status, total, records, false⟩ } }.raise .answerReady

/-- The marks whose range meets [s, e), in table order (R86). -/
def meeting (s e : Nat) (table : List Mark) : List Mark := table.filter fun m => rangesMeet m.start m.stop s e

/-- The key of a mark comes after a cursor in table order (R87). -/
def Mark.afterCursor (m : Mark) (start id : Nat) : Bool := start < m.start || (m.start == start && id < m.id)

/-- A chunk of a scan: the first 16 of the matching marks, MORE or END, and the scan left open or closed (R86, R87). -/
def State.fillChunk (s0 e0 : Nat) (found : List Mark) (s : State) : State :=
  let chunk := found.take 16
  if 16 < found.length then
    let s1 := s.fillAnswer .scan .more found.length chunk
    { s1 with marks := { s1.marks with
        scan := chunk.getLast?.map fun m => ⟨s0, e0, m.start, m.id⟩ } }
  else
    let s1 := s.fillAnswer .scan .done found.length chunk
    { s1 with marks := { s1.marks with scan := none } }

/-- A candidate put at its place: by layer, highest first, and among equal layers by id, highest first (R85). -/
def insertCandidate (m : Mark) : List Mark → List Mark
  | [] => [m]
  | h :: rest =>
    if h.layer < m.layer ∨ (m.layer = h.layer ∧ h.id < m.id) then m :: h :: rest else h :: insertCandidate m rest

/-- The unmuted marks whose segment in the line or whose note beside it holds column x, in candidate order (R85). -/
def candidates (fs : FaceStore) (t : Template) (table : List Mark) (lines : LineTable) (slot x : Nat) : List Mark :=
  let record := (lines.slot slot).record
  let notes := lineNotes fs t table lines slot
  (table.filter fun m => !m.muted &&
    ((match m.span record with
      | some (x0, x1) => decide (x0 ≤ x) && decide (x ≤ x1)
      | none => false) ||
     notes.any fun n => n.mark.id == m.id && n.holds x)).foldr insertCandidate []

/-- The marks that a hit test at (x, y) finds: none where no SET line's box holds row y (R82, R85). -/
def State.hits (s : State) (x y : Nat) : List Mark :=
  match s.setter.template.slotAtRow y with
  | none => []
  | some slot =>
    if (s.lines.slot slot).record.isSet then
      candidates s.faces s.setter.template s.marks.table s.lines slot x
    else []

/-! ### Changes -/

/-- The mark table takes a new content. -/
def State.setTable (table : List Mark) (s : State) : State := { s with marks := { s.marks with table := table } }

/-- Every SET slot whose range meets one of the ranges enters the render list with cause MARK (R73). -/
def State.dirty (spans : List (Nat × Nat)) (s : State) : State :=
  { s with renderer := { s.renderer with
      list := listSlots (fun slot => spans.any fun r => (s.lines.slot slot).meets r.1 r.2) .mark s.renderer.list } }

/-- Every on-page flag is worked out against the line table as it stands (R74). -/
def State.recomputeOnPage (s : State) : State := s.setTable (s.marks.table.map (Mark.onLines s.lines))

/-- The open scan is closed (R89). -/
def State.closeScan (s : State) : State := { s with marks := { s.marks with scan := none } }

/-! ### Requests at service (R66 to R71, R81 to R87) -/

/-- MARK ADD at service done (R66). -/
def serveAdd (m : Mark) (s : State) : State :=
  if (findMark m.id s.marks.table).isSome then s.refuse Cmd.markAdd.code .duplicate
  else if Config.markLimit ≤ s.marks.table.length then s.refuse Cmd.markAdd.code .full
  else (s.setTable (insertMark (m.onLines s.lines) s.marks.table)).dirty [(m.start, m.stop)]

/-- MARK RANGE at service done (R67). -/
def serveRange (id start stop : Nat) (s : State) : State :=
  match findMark id s.marks.table with
  | none => s.refuse Cmd.markRange.code .notFound
  | some old =>
    let m := { old with start := start, stop := stop }
    (s.setTable (insertMark (m.onLines s.lines) (removeMark id s.marks.table))).dirty
      [(old.start, old.stop), (start, stop)]

/-- MARK STYLE at service done (R68). -/
def serveStyle (id : Nat) (style : MarkStyle) (shade : Level) (layer : Nat) (tag : Option Nat) (muted : Bool)
    (s : State) : State :=
  match findMark id s.marks.table with
  | none => s.refuse Cmd.markStyle.code .notFound
  | some old =>
    let m := { old with style := style, shade := shade, layer := layer, tag := tag, muted := muted }
    (s.setTable (s.marks.table.map fun k => if k.id = id then m.onLines s.lines else k)).dirty [(old.start, old.stop)]

/-- MARK RETIRE at service done (R69). -/
def serveRetire (id : Nat) (s : State) : State :=
  match findMark id s.marks.table with
  | none => s.refuse Cmd.markRetire.code .notFound
  | some old => (s.setTable (removeMark id s.marks.table)).dirty [(old.start, old.stop)]

/-- The mark lies wholly inside [s, e) (R70). -/
def Mark.within (m : Mark) (s e : Nat) : Bool := s ≤ m.start && m.stop ≤ e

/-- MARK SWEEP at service done, with its report (R70). -/
def serveSweep (s0 e0 : Nat) (s : State) : State :=
  let gone := s.marks.table.filter fun m => m.within s0 e0
  let kept := s.marks.table.filter fun m => !m.within s0 e0
  ((s.setTable kept).dirty (gone.map fun m => (m.start, m.stop))).fillAnswer .sweep
    (if gone.isEmpty then .none else .found) gone.length []

/-- MARK CLEAR at service done (R71). -/
def serveClear (s : State) : State :=
  (s.setTable []).dirty (s.marks.table.map fun m => (m.start, m.stop))

/-- MARK GET at service done (R81, R89). -/
def serveGet (id : Nat) (s : State) : State :=
  match findMark id s.marks.table with
  | some m => s.closeScan.fillAnswer .get .found 1 [m]
  | none => s.closeScan.fillAnswer .get .none 0 []

/-- MARK AT at service done (R82, R85, R89). -/
def serveAt (x y : Nat) (s : State) : State :=
  let found := s.hits x y
  if found.isEmpty then s.closeScan.fillAnswer .at .none 0 []
  else s.closeScan.fillAnswer .at .found found.length (found.take 8)

/-- MARK SCAN at service done (R86). -/
def serveScan (s0 e0 : Nat) (s : State) : State := s.fillChunk s0 e0 (meeting s0 e0 s.marks.table)

/-- SCAN NEXT at service done (R87). -/
def serveNext (s : State) : State :=
  match s.marks.scan with
  | none => s.refuse Cmd.scanNext.code .wrongState
  | some c =>
    s.fillChunk c.s c.e ((meeting c.s c.e s.marks.table).filter fun m => m.afterCursor c.cursorStart c.cursorId)

/-- The request in service acts (R63). -/
def MarkRequest.serve (r : MarkRequest) (s : State) : State :=
  match r with
  | .add id start stop style shade layer tag =>
    serveAdd ⟨id, start, stop, style, shade, layer, tag, false, false⟩ s
  | .range id start stop => serveRange id start stop s
  | .restyle id style shade layer tag muted => serveStyle id style shade layer tag muted s
  | .retire id => serveRetire id s
  | .sweep s0 e0 => serveSweep s0 e0 s
  | .clear => serveClear s
  | .get id => serveGet id s
  | .at x y => serveAt x y s
  | .scan s0 e0 => serveScan s0 e0 s
  | .next => serveNext s

/-- The mark unit after a RESET command: table kept with every on-page flag no, queue, answer and scan emptied, the
request in service carried on (R75, R76, R90). -/
def MarkUnit.afterResetCommand (u : MarkUnit) : MarkUnit :=
  { u with table := u.table.map fun m => { m with onPage := false }, queue := [], answer := .blank, scan := none }

end Sys2Proof.Machine
end

