-- ==== Sys2Proof/Machine/Planes.lean ====
section
/-! DEFINITION. Operations on the image planes and on the drive port, both held by their points of change.

`Points.wf` is the one canonical form: points rise strictly, and no point repeats the value before it. Two planes
that read alike are then equal data. -/

namespace Sys2Proof.Machine

/-- The value at index i, where `d` is the value below the first point. -/
def Points.read {α : Type} (d : α) : Points α → Nat → α
  | [], _ => d
  | (k, v) :: rest, i => if i < k then d else Points.read v rest i

/-- The points without those that repeat the value before them. -/
def Points.compress {α : Type} [DecidableEq α] (d : α) : Points α → Points α
  | [] => []
  | (k, v) :: rest => if v = d then Points.compress d rest else (k, v) :: Points.compress v rest

/-- Strictly rising points, from `lo` up, of which none repeats the value before it. -/
def Points.wfFrom {α : Type} [DecidableEq α] (lo : Nat) (d : α) : Points α → Bool
  | [] => true
  | (k, v) :: rest => decide (lo ≤ k) && decide (v ≠ d) && Points.wfFrom (k + 1) v rest

/-- The canonical form of points over a default. -/
def Points.wf {α : Type} [DecidableEq α] (d : α) (p : Points α) : Bool := Points.wfFrom 0 d p

/-- The points at indices below `i`. -/
def Points.below {α : Type} (p : Points α) (i : Nat) : Points α := p.filter fun q => q.1 < i

/-- The points at indices above `i`. -/
def Points.above {α : Type} (p : Points α) (i : Nat) : Points α := p.filter fun q => i < q.1

/-- The points strictly between `lo` and `hi`. -/
def Points.between {α : Type} (p : Points α) (lo hi : Nat) : Points α := p.filter fun q => lo < q.1 && q.1 < hi

/-- The plane `p` with the range [lo, hi) taking the values of the points `q`, whose first point is at `lo`. -/
def Points.splice {α : Type} [DecidableEq α] (d : α) (p q : Points α) (lo hi : Nat) : Points α :=
  if lo < hi then Points.compress d (p.below lo ++ (q ++ (hi, p.read d hi) :: p.above hi)) else p

/-- The points on [lo, hi) of `f` applied to a plane. -/
def Points.mapped {α β : Type} (f : α → β) (d : α) (p : Points α) (lo hi : Nat) : Points β :=
  (lo, f (p.read d lo)) :: (p.between lo hi).map fun q => (q.1, f q.2)

/-- A list of indices with `k` put at its place among them, once. -/
def insertIndex (k : Nat) : List Nat → List Nat
  | [] => [k]
  | j :: rest => if k < j then k :: j :: rest else if k = j then j :: rest else j :: insertIndex k rest

/-- The points on [lo, hi) of `f` applied to two planes. -/
def Points.zipped {α β γ : Type} (f : α → β → γ) (da : α) (db : β) (a : Points α) (b : Points β) (lo hi : Nat) :
    Points γ :=
  let keys := (b.between lo hi).foldr (fun q ks => insertIndex q.1 ks) ((a.between lo hi).map Prod.fst)
  (lo, f (a.read da lo) (b.read db lo)) :: keys.map fun k => (k, f (a.read da k) (b.read db k))

/-- The level of the pixel (x, y). -/
def Plane.level (p : Plane) (x y : Nat) : Level := p.read white (pixelIndex x y)

/-- The plane with one pixel set to a level (R4). -/
def Plane.setPixel (p : Plane) (x y : Nat) (v : Level) : Plane :=
  p.splice white [(pixelIndex x y, v)] (pixelIndex x y) (pixelIndex x y + 1)

/-- The plane with every pixel of the rectangle taking `f` of the same pixel of `src`. -/
def Plane.copyRect (f : Level → Level) (src : Plane) (r : Rect) (p : Plane) : Plane :=
  r.ranges.foldl (fun q range => q.splice white (src.mapped f white range.1 range.2) range.1 range.2) p

/-- The drive port with every pixel of the rectangle taking `f` of its current and goal levels. -/
def drivePixels (f : Level → Level → Drive) (current goal : Plane) (r : Rect) (p : Points Drive) : Points Drive :=
  r.ranges.foldl
    (fun q range => q.splice .hold (Points.zipped f white white current goal range.1 range.2) range.1 range.2) p

/-- The canonical form of a plane: rising points, none repeating the level before it. -/
def Plane.wf (p : Plane) : Bool := Points.wf white p

end Sys2Proof.Machine
end

