-- ==== Sys2Proof/Machine/Scheduler.lean ====
section
/-! DEFINITION. The update scheduler, with the parts of the supply controller and of the panel drive that it calls
(08_refresh_scheduling.md; R151 to R156; R160 to R163). -/

namespace Sys2Proof.Machine

/-! ### Modes and tables -/

/-- The place of a mode in the order of strength (R116). -/
def Mode.rank : Mode → Nat
  | .fast => 0
  | .gray => 1
  | .clean => 2

/-- The stronger of two modes (R116). -/
def Mode.stronger (a b : Mode) : Mode := if a.rank < b.rank then b else a

/-- The place of a waveform table among the 24 (R143). -/
def tableIndex (m : Mode) (band : Nat) : Nat := 8 * m.rank + band

/-- The waveform table of a mode and band (R143). -/
def PanelDrive.table (d : PanelDrive) (m : Mode) (band : Nat) : Wave := look d.tables (tableIndex m band) .absent

/-- The length of the table if it is READY (R143). -/
def Wave.readyLength : Wave → Option Nat
  | .ready n _ => some n
  | _ => none

/-- The table of a mode in the band in force is READY. -/
def PanelDrive.isReady (d : PanelDrive) (m : Mode) : Bool := (d.table m d.band).readyLength.isSome

/-- The table of the mode if it is READY, otherwise that of the weakest stronger mode that is (R128). -/
def PanelDrive.chooseMode (d : PanelDrive) (m : Mode) : Option Mode :=
  [Mode.fast, Mode.gray, Mode.clean].find? fun c => m.rank ≤ c.rank && d.isReady c

/-- The temperature is usable: a reading is held and lies in the usable range (R151). -/
def PanelDrive.usable (d : PanelDrive) : Bool :=
  match d.reading with
  | none => false
  | some t => d.bands.tmin ≤ t && t ≤ d.bands.tmax

/-! ### Slots and zones -/

/-- The DRIVING slot of an index. -/
def Scheduler.slot (q : Scheduler) (i : Nat) : Option Driving := look q.slots i none

/-- The lowest FREE slot (R122). -/
def Scheduler.freeSlot (q : Scheduler) : Option Nat := (List.range 8).find? fun i => (q.slot i).isNone

/-- The number of DRIVING slots (R122). -/
def Scheduler.drivingCount (q : Scheduler) : Nat := ((List.range 8).filter fun i => (q.slot i).isSome).length

/-- Some slot is DRIVING. -/
def Scheduler.anyDriving (q : Scheduler) : Bool := (List.range 8).any fun i => (q.slot i).isSome

/-- The rectangle intersects that of a DRIVING slot. -/
def Scheduler.meetsDriving (q : Scheduler) (r : Rect) : Bool :=
  (List.range 8).any fun i => match q.slot i with
    | some d => r.intersects d.rect
    | none => false

/-- The entry is held: its rectangle meets a DRIVING slot or an older entry (R125, R127). -/
def Scheduler.blocked (q : Scheduler) (older : List Request) (r : Rect) : Bool :=
  q.meetsDriving r || older.any fun e => r.intersects e.rect

/-- Some zone that the rectangle touches has a ghost score of G or more (R126). -/
def Scheduler.ghosted (q : Scheduler) (r : Rect) : Bool :=
  (List.range 8).any fun z => r.touchesZone z && decide (q.settings.ghostLimit ≤ look q.ghost z 0)

/-! ### The pending queue (R118 to R120) -/

/-- The origin of an entry that absorbs a request: EXPLICIT if the request is, otherwise its own (R118, R119). -/
def absorbOrigin (entry request : Origin) : Origin := if request = .explicit then .explicit else entry

/-- The entry qualifies to absorb the request (R118). -/
def Request.qualifies (e r : Request) : Bool :=
  e.mode == r.mode && (e.rect.intersects r.rect || e.rect.sharesEdge r.rect) &&
    (e.rect.sameColumns r.rect || e.rect.sameRows r.rect)

/-- The entry with the request merged into it (R118). -/
def Request.absorb (e r : Request) : Request :=
  { e with rect := e.rect.bounding r.rect, origin := absorbOrigin e.origin r.origin }

/-- The entry with the request squeezed into it (R119). -/
def Request.squeeze (e r : Request) : Request :=
  { e with rect := e.rect.bounding r.rect, mode := e.mode.stronger r.mode, origin := absorbOrigin e.origin r.origin }

/-- The queue with the request merged into the youngest entry that qualifies, if one does (R118). -/
def mergeYoungest (r : Request) : List Request → Option (List Request)
  | [] => none
  | e :: rest =>
    match mergeYoungest r rest with
    | some rest' => some (e :: rest')
    | none => if e.qualifies r then some (e.absorb r :: rest) else none

/-- The queue with the request squeezed into its youngest entry (R119). -/
def squeezeYoungest (r : Request) : List Request → List Request
  | [] => [r]
  | [e] => [e.squeeze r]
  | e :: rest => e :: squeezeYoungest r rest

/-- A request that is not a REPAIR is taken: merged, appended or squeezed (R118, R119). -/
def State.takeRequest (r : Request) (s : State) : State :=
  match mergeYoungest r s.sched.queue with
  | some q => { s with sched := { s.sched with queue := q } }
  | none =>
    if s.sched.queue.length < Config.pendingLimit then
      { s with sched := { s.sched with queue := s.sched.queue ++ [r] } }
    else { s with sched := { s.sched with queue := squeezeYoungest r s.sched.queue } }.raise .queueSqueeze

/-- The youngest entry squeezed into its predecessor to make room for a REPAIR (R120). -/
def Request.squeezeTail (older younger : Request) : Request :=
  { rect := older.rect.bounding younger.rect
    mode := older.mode.stronger younger.mode
    origin := if younger.origin = .repair ∨ younger.origin = .explicit then younger.origin else older.origin
    promoted := older.promoted || younger.promoted }

/-- The queue with its two youngest entries made one (R120). -/
def squeezeTail : List Request → List Request
  | [] => []
  | [e] => [e]
  | [a, b] => [a.squeezeTail b]
  | a :: rest => a :: squeezeTail rest

/-- A REPAIR request is put in behind the `before` repairs of the same abort and ahead of all other entries (R120). -/
def State.insertRepair (before : Nat) (r : Request) (s : State) : State :=
  let s1 := if s.sched.queue.length < Config.pendingLimit then s
    else { s with sched := { s.sched with queue := squeezeTail s.sched.queue } }.raise .queueSqueeze
  { s1 with sched := { s1.sched with queue := s1.sched.queue.take before ++ r :: s1.sched.queue.drop before } }

/-! ### Latch (R126 to R130) -/

/-- The promotion of an entry at its latch (R126). -/
def Request.promote (e : Request) (q : Scheduler) : Request :=
  if e.promoted then e
  else if !q.panelKnown then { e with mode := .clean, promoted := true, rect := .panel }
  else if q.settings.ghostLimit ≠ 0 ∧ q.ghosted e.rect then
    { e with mode := .clean, promoted := true, rect := e.rect.zoneUnion }
  else e

/-- The goal of a target level by display state and mode (R3, R129). -/
def goalLevel (q : Scheduler) (mode : Mode) (target : Level) : Level :=
  let plain := if q.blank then white else if q.inverted then white - target else target
  if mode = .fast then (if 8 ≤ plain.val then white else 0) else plain

/-- The frame timer and the enrolment of a slot that is latched: an IDLE timer starts a frame and enrols it (R154). -/
def PanelDrive.startFrame (d : PanelDrive) : PanelDrive × Bool :=
  match d.frame with
  | none => ({ d with frame := some d.period }, true)
  | some _ => (d, false)

/-- The entry starts in slot i: its goals are set from the target plane at one access (R129, R130, R154). -/
def State.startIn (i : Nat) (e : Request) (s : State) : State :=
  let frame := s.drive.startFrame
  let length := ((s.drive.table e.mode s.drive.band).readyLength).getD 0
  { s with
    image := { s.image with
      goal := Plane.copyRect (goalLevel s.sched e.mode) s.image.target e.rect s.image.goal }
    sched := { s.sched with
      slots := put s.sched.slots i (some ⟨e.rect, e.mode, s.drive.band, length, 0, frame.2⟩) }
    drive := frame.1 }

/-- What a latch does: it starts the entry, or leaves it pending, perhaps for want of a waveform. -/
inductive Latched where
  | started (s : State)
  | left (e : Request) (want : Bool)

/-- A latch of an entry into the FREE slot i, behind the older entries (R126 to R130). -/
def State.latch (older : List Request) (i : Nat) (e : Request) (s : State) : Latched :=
  let e1 := e.promote s.sched
  if e1.rect ≠ e.rect ∧ s.sched.blocked older e1.rect then .left e1 false
  else match s.drive.chooseMode e1.mode with
    | none => .left e1 true
    | some m => .started (s.startIn i { e1 with mode := m })

/-! ### Scan (R123 to R125) -/

/-- A hold for want of a waveform: the marker is set and NO_WAVEFORM raised if it was clear (R125). -/
def State.holdForWave (s : State) : State :=
  if s.sched.waveHold then s
  else { s with sched := { s.sched with waveHold := true } }.raise .noWaveform

/-- The entries are judged from the oldest to the youngest; `want` says that one was held for want of a waveform
(R125). -/
def scanEntries : List Request → List Request → Bool → State → State
  | older, [], want, s =>
    { s with sched := { s.sched with queue := older, waveHold := want && s.sched.waveHold } }
  | older, e :: rest, want, s =>
    match s.sched.freeSlot with
    | none => { s with sched := { s.sched with queue := older ++ e :: rest } }
    | some i =>
      if s.sched.blocked older e.rect then scanEntries (older ++ [e]) rest want s
      else if (s.drive.chooseMode e.mode).isNone then scanEntries (older ++ [e]) rest true s.holdForWave
      else match s.latch older i e with
        | .started s' => scanEntries older rest want s'
        | .left e' false => scanEntries (older ++ [e']) rest want s
        | .left e' true => scanEntries (older ++ [e']) rest true s.holdForWave

/-- Step 4 of a scan: the queue's entries are judged (R124, R125). -/
def State.judgeEntries (s : State) : State := scanEntries [] s.sched.queue false s

/-- The supply has reached ON: the power-up and filter timers stop (R160). -/
def Supply.reachOn (p : Supply) : Supply := { p with state := .on, powerUp := none, filter := none }

/-- The scheduler asks for power while the supply is OFF (R160). With power-good high and a filter time of 0 the
supply is ON at once, and the report of ON scans the queue, whose entries are then judged (DEDUCED, unsafe: log
entry 15). -/
def State.askPower (s : State) : State :=
  let p := { s.supply with state := .rising, powerUp := some s.supply.settings.timeout }
  if s.supply.pgood then
    if s.supply.settings.filterTime = 0 then { s with supply := p.reachOn }.judgeEntries
    else { s with supply := { p with filter := some s.supply.settings.filterTime } }
  else { s with supply := p }

/-- A scan (R124). -/
def State.scan (s : State) : State :=
  if s.sched.queue.isEmpty then { s with sched := { s.sched with tempHold := false, waveHold := false } }
  else if !s.drive.usable then
    if s.sched.tempHold then s
    else { s with sched := { s.sched with tempHold := true } }.raise .tempRange
  else
    let s1 := { s with sched := { s.sched with tempHold := false } }
    match s1.supply.state with
    | .on => s1.judgeEntries
    | .off => s1.askPower
    | .rising => s1
    | .fault => s1

/-- The effects of a taken request besides the queue: the settle and idle timers are cancelled (R121, R163). -/
def State.cancelQuiet (s : State) : State :=
  { s with sched := { s.sched with settle := none }, supply := { s.supply with idle := none } }

/-- A request that is not a REPAIR reaches the scheduler (R121). -/
def State.post (r : Request) (s : State) : State :=
  if s.sched.blank ∧ (r.origin = .render ∨ r.origin = .window) then s
  else (s.takeRequest r).cancelQuiet.scan

/-! ### Completion, settle and tidy (R131 to R135) -/

/-- The ghost score of zone z after a completion in a mode over a rectangle (R131). -/
def ghostAfter (mode : Mode) (r : Rect) (z score : Nat) : Nat :=
  if r.touchesZone z then
    match mode with
    | .fast => min 255 (score + 4)
    | .gray => min 255 (score + 1)
    | .clean => if (zoneRect z).inside r then 0 else score
  else score

/-- The coarse flag of zone z after a completion in a mode over a rectangle (R132). -/
def coarseAfter (mode : Mode) (r : Rect) (z : Nat) (flag : Bool) : Bool :=
  match mode with
  | .fast => flag || r.touchesZone z
  | .gray | .clean => flag && !(zoneRect z).inside r

/-- Steps 1 to 4 of a completion: current plane, scores, flags, panel-known, the slot, and REFRESH_DONE (R133). A
held pixel's goal equals its current level, so giving every pixel of the rectangle its goal changes the driven ones
alone (R130). -/
def State.completeSlot (i : Nat) (d : Driving) (s : State) : State :=
  { s with
    image := { s.image with current := Plane.copyRect id s.image.goal d.rect s.image.current }
    sched := { s.sched with
      ghost := mapPlaces (ghostAfter d.mode d.rect) s.sched.ghost
      coarse := mapPlaces (coarseAfter d.mode d.rect) s.sched.coarse
      panelKnown := s.sched.panelKnown || decide (d.mode = Mode.clean ∧ d.rect = Rect.panel)
      slots := put s.sched.slots i none } }.raise .refreshDone

/-- The idle timer starts at the quiet report if the supply is ON and the idle delay is not 0 (R163). -/
def Supply.startIdle (p : Supply) : Supply :=
  if p.state = .on ∧ p.settings.idleDelay ≠ 0 then { p with idle := some (10 * p.settings.idleDelay) } else p

/-- The TIDY request of a zone (R135). -/
def tidyRequest (z : Nat) : Request := ⟨zoneRect z, .gray, .tidy, false⟩

/-- If zone z is coarse its flag is cleared and a TIDY request is posted for it (R135). -/
def State.tidyZone (s : State) (z : Nat) : State :=
  if look s.sched.coarse z false then
    { s with sched := { s.sched with coarse := put s.sched.coarse z false } }.post (tidyRequest z)
  else s

/-- The settle timer expires (R135). -/
def State.settleExpires (s : State) : State :=
  let s1 := { s with sched := { s.sched with settle := none } }.raise .panelQuiet
  let s2 := { s1 with supply := s1.supply.startIdle }
  if s2.sched.settings.tidy then (List.range 8).foldl State.tidyZone s2 else s2

/-- The settle timer starts; a settle time of 0 expires at once (R134). -/
def State.startSettle (s : State) : State :=
  if s.sched.settings.settleTime = 0 then s.settleExpires
  else { s with sched := { s.sched with settle := some s.sched.settings.settleTime } }

/-- A slot's completion is reported (R133). -/
def State.completion (i : Nat) (d : Driving) (s : State) : State :=
  let s1 := (s.completeSlot i d).scan
  if !s1.sched.anyDriving && s1.sched.queue.isEmpty then s1.startSettle else s1

/-! ### Supply faults (R140, R161, R162) -/

/-- The REPAIR requests of an abort, in ascending slot order (R140). -/
def Scheduler.repairs (q : Scheduler) : List Request :=
  (List.range 8).filterMap fun i => (q.slot i).map fun d => ⟨d.rect, .clean, .repair, false⟩

/-- REPAIR requests are put at the head of the queue, in order (R120). -/
def insertRepairs : Nat → List Request → State → State
  | _, [], s => s
  | before, r :: rest, s => insertRepairs (before + 1) rest (s.insertRepair before r)

/-- Every DRIVING slot is aborted and its repair put in; the queue is then scanned (R140, R121, R154). -/
def State.abortSlots (s : State) : State :=
  match s.sched.repairs with
  | [] => s
  | repairs =>
    let s1 := { s with
      sched := { s.sched with slots := Vector.replicate 8 none }
      drive := { s.drive with frame := none } }
    (insertRepairs 0 repairs s1).cancelQuiet.scan

/-- The supply enters FAULT: enable low, timers stopped, SUPPLY_FAULT raised, the scheduler told (R161, R162). -/
def State.enterFault (s : State) : State :=
  ({ s with supply := { s.supply with state := .fault, powerUp := none, filter := none, idle := none } }.raise
    .supplyFault).abortSlots

/-- The supply becomes ON and the scheduler scans (R160, R123). -/
def State.supplyOn (s : State) : State := { s with supply := s.supply.reachOn }.scan

/-! ### Frames (R144, R155) -/

/-- The code a table holds for a frame and a pair of levels (R144). -/
def Wave.code (w : Wave) (frame start goal : Nat) : Nat :=
  match w with
  | .ready _ data =>
    let p := start * 16 + goal
    let cell := data.getD (frame * 64 + p / 4) 0
    (cell.toNat / 4 ^ (3 - p % 4)) % 4
  | _ => 0

/-- The action of a two-bit code: 3 acts as HOLD (R144). -/
def Drive.ofCode (c : Nat) : Drive := if c = 1 then .darken else if c = 2 then .lighten else .hold

/-- The drive a slot's pixel receives in a frame, held pixels HOLD (R130, R144). -/
def pixelDrive (w : Wave) (d : Driving) (current goal : Level) : Drive :=
  if d.mode ≠ .clean ∧ current = goal then .hold else Drive.ofCode (w.code d.count current.val goal.val)

/-- An enrolled slot receives its frame and its count advances; at the waveform's end it completes (R155). -/
def State.driveSlot (s : State) (i : Nat) : State :=
  match s.sched.slot i with
  | none => s
  | some d =>
    let w := s.drive.table d.mode d.band
    let s1 := { s with
      drive := { s.drive with driven := drivePixels (pixelDrive w d) s.image.current s.image.goal d.rect s.drive.driven }
      sched := { s.sched with slots := put s.sched.slots i (some { d with count := d.count + 1 }) } }
    if d.count + 1 = d.length then s1.completion i { d with count := d.count + 1 } else s1

/-- The indices of the DRIVING slots that are enrolled, or that wait. -/
def Scheduler.enrolled (q : Scheduler) (yes : Bool) : List Nat :=
  (List.range 8).filter fun i => match q.slot i with
    | some d => d.enrolled == yes
    | none => false

/-- A waiting slot becomes enrolled (R155). -/
def State.enrol (s : State) (i : Nat) : State :=
  match s.sched.slot i with
  | none => s
  | some d => { s with sched := { s.sched with slots := put s.sched.slots i (some { d with enrolled := true }) } }

/-- A frame end (R155): the drive port sends HOLD outside the enrolled slots' rectangles, each enrolled slot gets its
frame in ascending order, the slots waiting when it began are enrolled, and the next frame starts if a slot drives. -/
def State.frameEnds (s : State) : State :=
  let waiting := s.sched.enrolled false
  let s0 := { s with drive := { s.drive with driven := [] } }
  let s1 := waiting.foldl State.enrol ((s.sched.enrolled true).foldl State.driveSlot s0)
  { s1 with drive := { s1.drive with frame := if s1.sched.anyDriving then some s1.drive.period else none } }

end Sys2Proof.Machine
end

