-- ==== Sys2Proof/Machine/Rendering.lean ====
section
/-! DEFINITION. Line descriptions and signatures, the levels of a line box, and render done (06_rendering_lines.md). -/

namespace Sys2Proof.Machine

/-! ### The description (R94 to R96) -/

/-- The segment of a mark in a line, if its mark is unmuted and it holds a column (R95). -/
def Mark.segment (m : Mark) (r : LineRecord) : Option Segment :=
  if m.muted then none else (m.span r).map fun c => ⟨m.style, m.shade, c.1, c.2⟩

/-- A mark stands before another in paint order: by layer, and within one layer by id (R95). -/
def Mark.paintsBefore (a b : Mark) : Bool := a.layer < b.layer || (a.layer == b.layer && a.id < b.id)

/-- A mark put at its place in paint order. -/
def insertPaint (m : Mark) : List Mark → List Mark
  | [] => [m]
  | h :: rest => if m.paintsBefore h then m :: h :: rest else h :: insertPaint m rest

/-- The segments of a line in paint order: the FILL segments first, then the others (R95). -/
def lineSegments (table : List Mark) (r : LineRecord) : List Segment :=
  let ordered := (table.foldr insertPaint []).filterMap fun m => m.segment r
  (ordered.filter fun g => g.style == .fill) ++ ordered.filter fun g => !(g.style == .fill)

/-- The notes that enter a line's description: those whose starting x is not beyond column 1247 (R96). -/
def descNotes (notes : List Note) : List DescNote :=
  (notes.filter fun n => n.x ≤ 1247).map fun n => ⟨n.mark.tag.getD 0, n.x⟩

/-- The empty description of an EMPTY slot (R94). -/
def Description.blank : Description := ⟨false, [], [], [], .clear⟩

/-- The description of a slot from the records, marks, template and note face as they stand (R94). -/
def State.describe (s : State) (slot : Nat) : Description :=
  let r := (s.lines.slot slot).record
  if r.isSet then
    { isSet := true
      placements := r.placements.map fun p => ⟨p.kind, p.face, p.code, p.pen⟩
      segments := lineSegments s.marks.table r
      notes := descNotes (lineNotes s.faces s.setter.template s.marks.table s.lines slot)
      flags := r.flags }
  else .blank

/-- The code of a placement kind in a description and in a line record (R94, 11.7). -/
def PlaceKind.code : PlaceKind → Byte
  | .glyph => 0
  | .space => 1
  | .fixed => 2
  | .hyphen => 3
  | .void => 4

/-- The code of a mark style (R94, 11.7). -/
def MarkStyle.code : MarkStyle → Byte
  | .fill => 0
  | .underline => 1
  | .dotted => 2
  | .box => 3

/-- The flags byte: LOOSE lowest, then SPLIT, HYPHENATED, PARA_END and MISSING (R94, 11.7). -/
def LineFlags.code (f : LineFlags) : Byte :=
  BitVec.ofNat 8 (f.loose.toNat + 2 * f.split.toNat + 4 * f.hyphenated.toNat + 8 * f.paraEnd.toNat +
    16 * f.missing.toNat)

/-- The bytes of a description, in order (R94). -/
def Description.bytes (d : Description) : List Byte :=
  if d.isSet then
    (d.placements.flatMap fun p => [p.kind.code, byteOf p.face] ++ threeBytes p.code ++ twoBytes p.pen) ++
    (d.segments.flatMap fun g => [g.style.code, byteOf g.shade.val] ++ twoBytes g.x0 ++ twoBytes g.x1) ++
    (d.notes.flatMap fun n => byteOf n.tag :: twoBytes n.x) ++ [d.flags.code]
  else []

/-- One bit of the CRC register: polynomial 0x1021 (R97). -/
def crcShift (c : BitVec 16) : BitVec 16 := if c.msb then (c <<< 1) ^^^ 0x1021 else c <<< 1

/-- The CRC register after one byte, most significant bit first (R97). -/
def crcByte (c : BitVec 16) (b : Byte) : BitVec 16 :=
  crcShift (crcShift (crcShift (crcShift (crcShift (crcShift (crcShift (crcShift
    (c ^^^ (b.zeroExtend 16 <<< 8)))))))))

/-- The CRC-16 of bytes: initial value 0xFFFF, no reflection, no final XOR (R97). -/
def crc16 (bs : List Byte) : BitVec 16 := bs.foldl crcByte 0xFFFF

/-- The signature of a description (R97). -/
def Description.signature (d : Description) : BitVec 16 := crc16 d.bytes

/-- The length of a description (R94, R97). -/
def Description.length (d : Description) : Nat := d.bytes.length

/-! ### The level of a box pixel (R99 to R102) -/

/-- The level of a pixel under coverage: b - floor((b * c + 7) / 15) (R101). -/
def underInk (b : Level) (c : Level) : Level := Fin.ofNat 16 (b.val - (b.val * c.val + 7) / 15)

/-- The lower of a level and a shade (R100, R102). -/
def lower (a b : Level) : Level := if a.val ≤ b.val then a else b

/-- A glyph whose pen is at `pen`, painted at column x and row y of a box with a baseline (R101). -/
def paintGlyph (fs : FaceStore) (g : Glyph) (pen baseline x y : Nat) (b : Level) : Level :=
  let i : Int := (x : Int) - (pen : Int) - g.bearing
  let j : Int := (y : Int) - (baseline : Int) + g.top
  if 0 ≤ i ∧ i < (g.width : Int) ∧ 0 ≤ j ∧ j < (g.height : Int) then
    underInk b (fs.coverage g i.toNat j.toNat)
  else b

/-- The glyph a placement paints: GLYPH and HYPHEN by full lookup in a face that is READY; the others nothing (R99). -/
def DescPlacement.glyph (fs : FaceStore) (p : DescPlacement) : Option Glyph :=
  if (p.kind = .glyph ∨ p.kind = .hyphen) ∧ (fs.face p.face).state = .ready then fs.fullLookup p.face p.code
  else none

/-- The segment's rule or frame holds the pixel at column x of row y, in a box from `top` (R102). -/
def Segment.rules (g : Segment) (t : Template) (top x y : Nat) : Bool :=
  let onRule := y == top + t.baseline + 2 || y == top + t.baseline + 3
  let within := g.x0 ≤ x && x ≤ g.x1
  match g.style with
  | .fill => false
  | .underline => onRule && within
  | .dotted => onRule && within && x % 2 == 0
  | .box => (x == g.x0 || x == g.x1 || y == top || y == top + t.pitch - 1) && within

/-- The level of the pixel at column x, row y of the line box that begins at row `top` (R99 to R102). -/
def boxLevel (fs : FaceStore) (t : Template) (d : Description) (top x y : Nat) : Level :=
  let inText := decide (x < t.left + t.measure)
  let baseline := top + t.baseline
  let filled := d.segments.foldl
    (fun b g => if inText && g.style == .fill && g.x0 ≤ x && x ≤ g.x1 then lower b g.shade else b) white
  let inked := d.placements.foldl
    (fun b p => match p.glyph fs with
      | some g => if inText then paintGlyph fs g p.pen baseline x y b else b
      | none => b) filled
  let ruled := d.segments.foldl (fun b g => if inText && g.rules t top x y then lower b g.shade else b) inked
  d.notes.foldl
    (fun b n => match fs.exactLookup t.noteFace (0xE000 + n.tag) with
      | some g => if inText then b else paintGlyph fs g n.x baseline x y b
      | none => b) ruled

/-! ### The course of a render (R92, R93, R98, R103) -/

/-- The pixels of a line box (R99). -/
def Template.boxPixels (t : Template) : Nat := Config.columns * t.pitch

/-- A render ends: the renderer is IDLE, and RENDER_IDLE is raised if its list is empty (R93). -/
def State.endRender (s : State) : State :=
  let s1 := { s with renderer := { s.renderer with job := none } }
  if s1.renderer.list.isEmpty then s1.raise .renderIdle else s1

/-- A slot of the line table is given a rendered signature and length (R98, R103). -/
def LineTable.setRendered (t : LineTable) (slot : Nat) (sig : BitVec 16) (len : Nat) : LineTable :=
  put t slot { t.slot slot with signature := some sig, length := some len }

/-- The mode of the request of a render by its cause (R103). -/
def SchedSettings.autoMode (c : SchedSettings) : Cause → Mode
  | .page => c.pageMode
  | .mark => c.markMode

/-- Render done: the signature and length are stored, the request is posted, and the render ends (R103). -/
def State.renderDone (j : RenderJob) (s : State) : State :=
  let t := s.setter.template
  let s1 := { s with lines := s.lines.setRendered j.slot j.description.signature j.description.length }
  (s1.post ⟨t.boxRect ((t.boxTop j.slot).getD 0), s1.sched.settings.autoMode j.cause, .render, false⟩).endRender

/-- The slot's stored signature and length are present and equal those of the description (R98). -/
def LineSlot.unchanged (l : LineSlot) (d : Description) : Bool :=
  l.signature == some d.signature && l.length == some d.length

/-- The IDLE renderer takes the first listed slot: it describes it and skips it or begins to paint it (R92, R98). -/
def State.startRender (s : State) : State :=
  match s.renderer.job, s.renderer.list with
  | none, (slot, cause) :: rest =>
    let s1 := { s with renderer := { s.renderer with list := rest } }
    let d := s1.describe slot
    if (s1.lines.slot slot).unchanged d then s1.endRender
    else { s1 with renderer := { s1.renderer with job := some ⟨slot, cause, d, 0⟩ } }
  | _, _ => s

end Sys2Proof.Machine
end

