-- ==== Sys2Proof/Machine/Image.lean ====
section
/-! DEFINITION. The arbiter of the image memory and the image port (01_the_page_surface.md, R4; 07_direct_image_access.md). -/

namespace Sys2Proof.Machine

/-! ### The window (R106, R107) -/

/-- The number of pixels of the window (R106). -/
def ImagePort.size (p : ImagePort) : Nat := p.window.pixels

/-- The pixel of window index k (R107). -/
def ImagePort.pixel (p : ImagePort) (k : Nat) : Nat × Nat :=
  let w := p.window.x1 - p.window.x0 + 1
  (p.window.x0 + k % w, p.window.y0 + k / w)

/-- The port posts its WINDOW request, unless its mode is NONE (R110). -/
def State.postWindow (s : State) : State :=
  match s.port.mode with
  | none => s
  | some m => s.post ⟨s.port.window, m, .window, false⟩

/-- The port is IDLE and has posted its request: the end of a write stream or of a fill (R111, R112). -/
def State.endPortWork (s : State) : State := { s with port := { s.port with state := .idle } }.postWindow

/-! ### Write grants (R4) -/

/-- One write of the renderer is granted: the next pixel of the box takes its level, with the glyphs as they stand at the
grant (DEDUCED, unsafe: log entry 9); the last one is render done (R99, R103). -/
def State.grantRenderer (j : RenderJob) (s : State) : State :=
  let t := s.setter.template
  let top := (t.boxTop j.slot).getD 0
  let x := j.written % Config.columns
  let y := top + j.written / Config.columns
  let j' := { j with written := j.written + 1 }
  let s1 := { s with
    image := { s.image with
      target := s.image.target.setPixel x y (boxLevel s.faces t j.description top x y), turn := .port }
    renderer := { s.renderer with job := some j' } }
  if t.boxPixels ≤ j'.written then s1.renderDone j' else s1

/-- The pixel at the write position is set and the position advances; at the window's end nothing is written (R107). -/
def State.portPixel (v : Level) (s : State) : State :=
  if s.port.position < s.port.size then
    let xy := s.port.pixel s.port.position
    { s with
      image := { s.image with target := s.image.target.setPixel xy.1 xy.2 v, turn := .renderer }
      port := { s.port with position := s.port.position + 1 } }
  else s

/-- One write of a fill is granted; the last one completes the fill (R112). -/
def State.grantFill (v : Level) (left : Nat) (s : State) : State :=
  let s1 := s.portPixel v
  if left ≤ 1 then s1.endPortWork else { s1 with port := { s1.port with state := .filling v (left - 1) } }

/-- The arbiter grants one waiting write, taking the clients in turn when both wait (R4). -/
def State.grantOne (s : State) : State :=
  match s.renderer.job, s.port.state with
  | some j, .filling v left => if s.image.turn = .renderer then s.grantRenderer j else s.grantFill v left
  | some j, _ => s.grantRenderer j
  | none, .filling v left => s.grantFill v left
  | none, _ => s

/-- A pixel of a write stream is written; a waiting write of the renderer whose turn it is goes first (R4, R109;
DEDUCED, safe: log entry 8). -/
def State.streamPixel (v : Level) (s : State) : State :=
  if s.port.position < s.port.size then
    match s.renderer.job with
    | some j => if s.image.turn = .renderer then (s.grantRenderer j).portPixel v else s.portPixel v
    | none => s.portPixel v
  else s

/-- The writes that wait at the arbiter. -/
def State.waitingWrites (s : State) : Nat :=
  (match s.renderer.job with
    | some j => s.setter.template.boxPixels - j.written + 1
    | none => 0) +
  (match s.port.state with
    | .filling _ left => left
    | _ => 0)

/-- Writes are granted, at most `n` of them, until the render under way ends. -/
def grantUntilRendered : Nat → State → State
  | 0, s => s
  | n + 1, s => if s.renderer.job.isNone then s else grantUntilRendered n s.grantOne

/-- The port is FILLING (R106). -/
def ImagePort.isFilling (p : ImagePort) : Bool :=
  match p.state with
  | .filling _ _ => true
  | _ => false

/-- Writes are granted, at most `n` of them, until the fill under way completes. -/
def grantUntilFilled : Nat → State → State
  | 0, s => s
  | n + 1, s => if s.port.isFilling then grantUntilFilled n s.grantOne else s

/-! ### Reading (R114) -/

/-- The level of window index k in a plane, 0 beyond the window. -/
def State.windowLevel (s : State) (plane : PlaneName) (k : Nat) : Level :=
  if k < s.port.size then
    let xy := s.port.pixel k
    match plane with
    | .target => s.image.target.level xy.1 xy.2
    | .current => s.image.current.level xy.1 xy.2
  else 0

/-- Data byte k of an IMAGE READ, as the pixels stand when it is returned (R114). -/
def State.windowByte (s : State) (plane : PlaneName) (k : Nat) : Byte :=
  pixelByte (s.windowLevel plane (2 * k)) (s.windowLevel plane (2 * k + 1))

end Sys2Proof.Machine
end

