-- ==== Sys2Proof/Machine/Operands.lean ====
section
/-! DEFINITION. The operand forms of the commands: parameter bytes to values, by the parameter tables of the chapters.

A form that admits values the tables call out of range answers `none` there; the meaning then refuses BAD_PARAM. -/

namespace Sys2Proof.Machine

/-- TEMPLATE SET: H, B, F, L, M of two bytes each, then P, A, I, J, NF (R13). -/
def templateOf (ps : List Byte) : Template :=
  ⟨field ps 0 2, field ps 2 2, field ps 4 2, field ps 6 2, field ps 8 2, field ps 10 1, field ps 11 1, field ps 12 1,
    field ps 13 1, field ps 14 1⟩

/-- An area code, 0 HEAD, 1 BODY, 2 FOOT (R41, R57). -/
def areaOf (n : Nat) : Option Area :=
  if n = 0 then some .head else if n = 1 then some .body else if n = 2 then some .foot else none

/-- An alignment code, 0 LEFT, 1 CENTER, 2 JUSTIFY (R41). -/
def alignOf (n : Nat) : Option Align :=
  if n = 0 then some .left else if n = 1 then some .center else if n = 2 then some .justify else none

/-- A flag byte, 0 no, 1 yes. -/
def flagOf (n : Nat) : Option Bool := if n = 0 then some false else if n = 1 then some true else none

/-- COMPOSE: area, start index, alignment and the two paragraph flags (R41). -/
structure ComposeOperands where
  area : Area
  start : Nat
  align : Align
  startsPara : Bool
  endsPara : Bool
  deriving DecidableEq, Repr

/-- The operands of COMPOSE against a text length; none where check 2 of R41 fails. -/
def composeOf (textLength : Nat) (ps : List Byte) : Option ComposeOperands := do
  let area ← areaOf (field ps 0 1)
  let align ← alignOf (field ps 3 1)
  let startsPara ← flagOf (field ps 4 1)
  let endsPara ← flagOf (field ps 5 1)
  if field ps 1 2 ≤ textLength ∧ (align = .justify → area = .body) then
    some ⟨area, field ps 1 2, align, startsPara, endsPara⟩
  else none

/-- LINE READ: the slot that an area and a slot number name (R57). -/
def lineSlotOf (ps : List Byte) : Option Nat := do
  let area ← areaOf (field ps 0 1)
  if field ps 1 1 < area.slotCount then some (area.firstSlot + field ps 1 1) else none

/-- PAGE CLEAR: the areas that a code names, 3 all of them (R58). -/
def clearAreasOf (ps : List Byte) : Option (List Area) :=
  if field ps 0 1 = 3 then some [.head, .body, .foot] else (areaOf (field ps 0 1)).map fun a => [a]

/-- FACE OPEN: a face number and its record, LOADING (R20). -/
structure FaceOperands where
  face : Nat
  record : Face
  deriving DecidableEq, Repr

/-- The operands of FACE OPEN; none where check 1 of R20 fails. -/
def faceOpenOf (ps : List Byte) : Option FaceOperands :=
  let r : Face := ⟨.loading, field ps 1 1, field ps 2 3, field ps 5 3⟩
  if field ps 0 1 ≤ 15 ∧ r.spaceAdvance ≠ 0 ∧ r.hyphenCode ≤ Config.codeLimit ∧ r.missingCode ≤ Config.codeLimit then
    some ⟨field ps 0 1, r⟩
  else none

/-- The header of GLYPH PUT as an entry without its run; none where check 1 of R21 fails. -/
def glyphOf (ps : List Byte) : Option Glyph :=
  let g : Glyph := ⟨field ps 0 1, field ps 1 3, field ps 4 1, signedField ps 5, signedField ps 6, field ps 7 1,
    field ps 8 1, none, bitmapBlocks (field ps 7 1) (field ps 8 1)⟩
  if g.face ≤ 15 ∧ g.code ≤ Config.codeLimit ∧ g.width ≤ 128 ∧ g.height ≤ 160 then some g else none

/-- A face number (R25, R26, R28). -/
def faceOf (ps : List Byte) : Option Nat := if field ps 0 1 ≤ 15 then some (field ps 0 1) else none

/-- A style code, 0 FILL, 1 UNDERLINE, 2 DOTTED, 3 BOX (R62). -/
def styleOf (n : Nat) : Option MarkStyle :=
  if n = 0 then some .fill else if n = 1 then some .underline else if n = 2 then some .dotted
  else if n = 3 then some .box else none

/-- A grey level, 0 to 15 (R62, R112). -/
def levelOf (n : Nat) : Option Level := if h : n < 16 then some ⟨n, h⟩ else none

/-- A note tag byte: 0 is absent, every other value a tag (R62). -/
def tagOf (n : Nat) : Option Nat := if n = 0 then none else some n

/-- A request that passes check 1 of R62. -/
def legalRequest (r : MarkRequest) : Option MarkRequest := if r.legal then some r else none

/-- MARK ADD (R62, R66). -/
def markAddOf (ps : List Byte) : Option MarkRequest := do
  let style ← styleOf (field ps 10 1)
  let shade ← levelOf (field ps 11 1)
  legalRequest (.add (field ps 0 2) (field ps 2 4) (field ps 6 4) style shade (field ps 12 1) (tagOf (field ps 13 1)))

/-- MARK RANGE (R62, R67). -/
def markRangeOf (ps : List Byte) : Option MarkRequest :=
  legalRequest (.range (field ps 0 2) (field ps 2 4) (field ps 6 4))

/-- MARK STYLE (R62, R68). -/
def markStyleOf (ps : List Byte) : Option MarkRequest := do
  let style ← styleOf (field ps 2 1)
  let shade ← levelOf (field ps 3 1)
  let muted ← flagOf (field ps 6 1)
  legalRequest (.restyle (field ps 0 2) style shade (field ps 4 1) (tagOf (field ps 5 1)) muted)

/-- MARK RETIRE (R62, R69). -/
def markRetireOf (ps : List Byte) : Option MarkRequest := legalRequest (.retire (field ps 0 2))

/-- MARK SWEEP (R62, R70). -/
def markSweepOf (ps : List Byte) : Option MarkRequest := legalRequest (.sweep (field ps 0 4) (field ps 4 4))

/-- MARK CLEAR has no parameters (R62, R71). -/
def markClearOf (_ : List Byte) : Option MarkRequest := some .clear

/-- MARK GET (R80, R81). -/
def markGetOf (ps : List Byte) : Option MarkRequest := legalRequest (.get (field ps 0 2))

/-- MARK AT, its point clamped to the panel at arrival (R80, R82). -/
def markAtOf (ps : List Byte) : Option MarkRequest := some (.at (clampX (field ps 0 2)) (clampY (field ps 2 2)))

/-- MARK SCAN (R80, R86). -/
def markScanOf (ps : List Byte) : Option MarkRequest := legalRequest (.scan (field ps 0 4) (field ps 4 4))

/-- SCAN NEXT has no parameters (R80, R87). -/
def scanNextOf (_ : List Byte) : Option MarkRequest := some .next

/-- A refresh mode of REFRESH and SCHED SET: 1 FAST, 2 GRAY, 3 CLEAN (R138, R139). -/
def modeOf (n : Nat) : Option Mode :=
  if n = 1 then some .fast else if n = 2 then some .gray else if n = 3 then some .clean else none

/-- A window mode: 0 NONE, otherwise a refresh mode (R108). -/
def windowModeOf (n : Nat) : Option (Option Mode) := if n = 0 then some none else (modeOf n).map some

/-- A rectangle of four edges of two bytes each, as received. -/
def rectOf (ps : List Byte) : Rect := ⟨field ps 0 2, field ps 2 2, field ps 4 2, field ps 6 2⟩

/-- IMAGE WINDOW: the window clamped at its right and bottom, and its mode; none where check 2 or 3 of R108 fails. -/
def imageWindowOf (ps : List Byte) : Option (Rect × Option Mode) := do
  let r := rectOf ps
  let mode ← windowModeOf (field ps 8 1)
  if r.x0 ≤ r.x1 ∧ r.y0 ≤ r.y1 ∧ r.x0 ≤ 1247 ∧ r.y0 ≤ 1663 then
    some (⟨r.x0, r.y0, clampX r.x1, clampY r.y1⟩, mode)
  else none

/-- IMAGE FILL: a level and a count from 1 to 65536 (R112). -/
def imageFillOf (ps : List Byte) : Option (Level × Nat) := do
  let level ← levelOf (field ps 0 1)
  if 1 ≤ field ps 1 3 ∧ field ps 1 3 ≤ 65536 then some (level, field ps 1 3) else none

/-- IMAGE READ: 0 TARGET, 1 CURRENT (R114). -/
def planeOf (ps : List Byte) : Option PlaneName :=
  if field ps 0 1 = 0 then some .target else if field ps 0 1 = 1 then some .current else none

/-- REFRESH: an EXPLICIT request for the rectangle with its edges clamped (R138). -/
def refreshOf (ps : List Byte) : Option Request := do
  let r := rectOf ps
  let mode ← modeOf (field ps 8 1)
  if r.x0 ≤ r.x1 ∧ r.y0 ≤ r.y1 then
    some ⟨⟨clampX r.x0, clampY r.y0, clampX r.x1, clampY r.y1⟩, mode, .explicit, false⟩
  else none

/-- SCHED SET (R139). -/
def schedSettingsOf (ps : List Byte) : Option SchedSettings := do
  let pageMode ← modeOf (field ps 0 1)
  let markMode ← modeOf (field ps 1 1)
  let tidy ← flagOf (field ps 4 1)
  some ⟨pageMode, markMode, field ps 2 1, field ps 3 1, tidy⟩

/-- The table of WAVE LOAD: 0 FAST, 1 GRAY, 2 CLEAN (R145). -/
def waveModeOf (n : Nat) : Option Mode :=
  if n = 0 then some .fast else if n = 1 then some .gray else if n = 2 then some .clean else none

/-- WAVE LOAD: mode, band and length of a table; none where check 1 of R145 fails. -/
def waveHeaderOf (ps : List Byte) : Option (Mode × Nat × Nat) := do
  let mode ← waveModeOf (field ps 0 1)
  if field ps 1 1 ≤ 7 ∧ field ps 2 1 ≠ 0 then some (mode, field ps 1 1, field ps 2 1) else none

/-- The band settings meet every range of R149. -/
def BandSettings.legal (b : BandSettings) : Bool :=
  let ts := b.thresholds.toList
  ts.all (fun t => -20 ≤ t && t ≤ 70) && (ts.zip ts.tail).all (fun p => p.1 < p.2) && b.hysteresis ≤ 7 &&
    (-20 ≤ b.tmin && b.tmin ≤ 70) && (-20 ≤ b.tmax && b.tmax ≤ 70) && b.tmin < b.tmax

/-- BANDS SET: seven signed thresholds, the hysteresis, Tmin and Tmax (R149). -/
def bandSettingsOf (ps : List Byte) : Option BandSettings :=
  let b : BandSettings := ⟨#v[signedField ps 0, signedField ps 1, signedField ps 2, signedField ps 3, signedField ps 4,
    signedField ps 5, signedField ps 6], field ps 7 1, signedField ps 8, signedField ps 9⟩
  if b.legal then some b else none

/-- TEMP SET: a signed value clamped to -40 to 100 (R150). -/
def temperatureOf (ps : List Byte) : Int := clampInt (-40) 100 (signedField ps 0)

/-- DRIVE SET: a frame period clamped to 8 to 25 (R157). -/
def framePeriodOf (ps : List Byte) : Nat := clampNat 8 25 (field ps 0 1)

/-- SUPPLY SET: a timeout of at least 1, a filter time of at most 15, and the idle delay (R165). -/
def supplySettingsOf (ps : List Byte) : SupplySettings :=
  ⟨clampNat 1 255 (field ps 0 1), clampNat 0 15 (field ps 1 1), field ps 2 1⟩

/-- A two-byte mask of event bits, in the bit order of R179. -/
def maskOf (ps : List Byte) (at_ : Nat) : BitVec 16 := BitVec.ofNat 16 (field ps at_ 2)

end Sys2Proof.Machine
end

