-- ==== Sys2Proof/Machine/Records.lean ====
section
/-! DEFINITION. The record formats seen on the link (11.7; R28, R170). -/

namespace Sys2Proof.Machine

/-- The power state reads SLEEP until wake done (R168, R181). -/
def Power.readsSleep (p : Power) : Bool := p.asleep

/-- The code of a supply state (11.7). -/
def SupplyState.code : SupplyState → Byte
  | .off => 0
  | .rising => 1
  | .on => 2
  | .fault => 3

/-- The code of an area (11.7). -/
def Area.code : Area → Byte
  | .head => 0
  | .body => 1
  | .foot => 2

/-- The code of an alignment (11.7). -/
def Align.code : Align → Byte
  | .left => 0
  | .center => 1
  | .justify => 2

/-- The code of a compose status (11.7). -/
def ComposeStatus.code : ComposeStatus → Byte
  | .none => 0
  | .textDone => 1
  | .pageFull => 2
  | .cancelled => 3

/-- The code of a face state (R28). -/
def FaceState.code : FaceState → Byte
  | .empty => 0
  | .loading => 1
  | .ready => 2

/-- The code of an answer kind (11.7). -/
def AnswerKind.code : AnswerKind → Byte
  | .none => 0
  | .get => 1
  | .at => 2
  | .scan => 3
  | .sweep => 4

/-- The code of an answer status (11.7). -/
def AnswerStatus.code : AnswerStatus → Byte
  | .none => 0
  | .found => 1
  | .more => 2
  | .done => 3

/-- The 18-byte status record (R181, 11.7). -/
def State.statusRecord (s : State) : List Byte :=
  [boolByte s.power.readsSleep, boolByte s.setter.job.isSome, byteOf s.renderer.list.length,
    boolByte (s.marks.serving.isSome || !s.marks.queue.isEmpty), byteOf s.sched.queue.length,
    byteOf s.sched.drivingCount, s.supply.state.code, byteOf s.drive.band, boolByte s.drive.usable,
    boolByte s.sched.panelKnown, boolByte s.sched.inverted, boolByte s.sched.blank] ++
  twoBytes s.setter.text.length ++ [s.link.lastRefusal.code, s.link.lastRefusal.reason] ++
  twoBytes s.events.flags.toNat

/-- The identification: vendor code, part code, revision (R170). -/
def idRecord : List Byte := [0x57, 0x04, 0x60, 0x01]

/-- The 7-byte compose result (R46, 11.7). -/
def Setter.resultRecord (st : Setter) : List Byte :=
  [boolByte st.job.isSome, st.result.status.code, st.result.area.code, byteOf st.result.linesSet] ++
  twoBytes st.result.nextStart ++ [boolByte st.result.nextPara]

/-- The 13 bytes of a placement (11.7). -/
def Placement.bytes (p : Placement) : List Byte :=
  [p.kind.code, byteOf p.face] ++ threeBytes p.code ++ fourBytes p.offset ++ twoBytes p.pen ++ twoBytes p.width

/-- The line record of a slot: 20 bytes and 13 for each placement (R57, 11.7). -/
def LineSlot.bytes (slot : Nat) (l : LineSlot) : List Byte :=
  let r := l.record
  [(slotArea slot).code, byteOf (slot - (slotArea slot).firstSlot), boolByte r.isSet] ++
  fourBytes r.docStart ++ fourBytes r.docEnd ++ [r.align.code, byteOf r.indent, r.flags.code] ++
  [boolByte (l.signature.isSome && l.length.isSome)] ++ twoBytes ((l.signature.getD 0).toNat) ++
  twoBytes (l.length.getD 0) ++ [byteOf r.placements.length] ++ r.placements.flatMap Placement.bytes

/-- The 9-byte reply of FACE INFO (R28). -/
def FaceStore.infoRecord (fs : FaceStore) (f : Nat) : List Byte :=
  (fs.face f).state.code :: (twoBytes (fs.glyphCount f) ++ twoBytes (fs.blocksInUse f) ++ twoBytes fs.freeBlocks ++
    twoBytes fs.largestFreeRun)

/-- The 15-byte mark record (11.7). -/
def Mark.bytes (m : Mark) : List Byte :=
  twoBytes m.id ++ fourBytes m.start ++ fourBytes m.stop ++
  [m.style.code, byteOf m.shade.val, byteOf m.layer, byteOf (m.tag.getD 0),
    byteOf (m.muted.toNat + 2 * m.onPage.toNat)]

/-- The bytes of the answer slot (R79, 11.7). -/
def Answer.bytes (a : Answer) : List Byte :=
  [a.kind.code, a.status.code] ++ twoBytes a.total ++ [byteOf a.records.length] ++ a.records.flatMap Mark.bytes

end Sys2Proof.Machine
end

