-- ==== Sys2Proof/Machine/Setting.lean ====
section
/-! DEFINITION. Breaking text into lines, placing lines, and filling an area (03_setting_lines.md, 3.2 and 3.5 to 3.7). -/

namespace Sys2Proof.Machine

/-- The codes with a meaning of their own (R38). -/
def spaceCode : Nat := 0x20
def fixedSpaceCode : Nat := 0xA0
def softHyphenCode : Nat := 0xAD
def paraEndCode : Nat := 0x0A

/-- The sum of the widths of placements: the natural width of a line (R48). -/
def naturalWidth (ps : List Placement) : Nat := (ps.map Placement.width).sum

/-- The placement is a SPACE. -/
def Placement.isSpace (p : Placement) : Bool := p.kind == .space

/-- The placements without the SPACE placements at their end (R50, R53). -/
def trimSpaces (ps : List Placement) : List Placement := (ps.reverse.dropWhile Placement.isSpace).reverse

/-- The candidate placement of a character that is neither a soft hyphen nor a paragraph end, before it has a pen
(R38, R40, R48). -/
def candidate (fs : FaceStore) (c : TextChar) (offset : Nat) : Placement :=
  let advance := (fs.face c.face).spaceAdvance
  if c.code = spaceCode then ⟨.space, c.face, c.code, offset, 0, advance⟩
  else if c.code = fixedSpaceCode then ⟨.fixed, c.face, c.code, offset, 0, advance⟩
  else match fs.fullLookup c.face c.code with
    | some g => ⟨.glyph, c.face, c.code, offset, 0, g.advance⟩
    | none => ⟨.void, c.face, c.code, offset, 0, advance⟩

/-- The lookup of a face's hyphen code answers VOID (R49). -/
def hyphenVoid (fs : FaceStore) (face : Nat) : Bool :=
  (fs.fullLookup face (fs.face face).hyphenCode).isNone

/-- The HYPHEN placement of a soft hyphen, before it has a pen (R40, R49). -/
def hyphenPlacement (fs : FaceStore) (c : TextChar) (offset : Nat) : Placement :=
  let code := (fs.face c.face).hyphenCode
  let width := match fs.fullLookup c.face code with
    | some g => g.advance
    | none => (fs.face c.face).spaceAdvance
  ⟨.hyphen, c.face, code, offset, 0, width⟩

/-- How a line ended: what it keeps, the index one past its last consumed character, and what happened. -/
structure LineEnd where
  kept : List Placement
  consumed : Nat
  split : Bool
  hyphenated : Bool
  hyphenMissing : Bool
  paraEnd : Bool
  textEnd : Bool
  deriving DecidableEq, Repr

/-- A break before a space: the placements before it are kept, less trailing spaces, and the space is consumed
(R49, R50). -/
def breakAtSpace (placed : List Placement) (index : Nat) : LineEnd :=
  ⟨trimSpaces placed, index + 1, false, false, false, false, false⟩

/-- The end of a line at a candidate that overflows or finds 255 placements (R50, R51, R52). `best` is the latest
usable opportunity before it and `last` the index one past the last character placed: a SPLIT line consumes up to
there (DEDUCED, unsafe: log entry 11). -/
def overflowEnd (placed : List Placement) (best : Option LineEnd) (last : Nat) (c : Placement) (index : Nat) :
    LineEnd :=
  if c.isSpace && !placed.isEmpty then breakAtSpace placed index
  else match best with
    | some b => b
    | none =>
      if placed.isEmpty then ⟨[c], index + 1, true, false, false, false, false⟩
      else ⟨placed, last, true, false, false, false, false⟩

/-- The setter takes the characters of a line one at a time (R48 to R53). The characters stand at text indices from
`index` up; `base` is the document base offset and `avail` is W_av. -/
def fillLine (fs : FaceStore) (base avail : Nat) :
    List TextChar → Nat → List Placement → Option LineEnd → Nat → LineEnd
  | [], index, placed, _, _ => ⟨trimSpaces placed, index, false, false, false, false, true⟩
  | c :: rest, index, placed, best, last =>
    if c.code = paraEndCode then ⟨trimSpaces placed, index + 1, false, false, false, true, false⟩
    else if c.code = softHyphenCode then
      let h := hyphenPlacement fs c (base + index)
      let usable := !placed.isEmpty && decide (naturalWidth placed + h.width ≤ avail) && decide (placed.length ≤ 254)
      let best' := if usable then
          some ⟨placed ++ [h], index + 1, false, true, hyphenVoid fs c.face, false, false⟩
        else best
      fillLine fs base avail rest (index + 1) placed best' last
    else
      let p := candidate fs c (base + index)
      if placed.length < Config.placementLimit ∧ naturalWidth placed + p.width ≤ avail then
        let best' := if p.isSpace && !placed.isEmpty then some (breakAtSpace placed index) else best
        fillLine fs base avail rest (index + 1) (placed ++ [p]) best' (index + 1)
      else overflowEnd placed best last p index

/-- The line is the last of its paragraph (R53). -/
def LineEnd.lastOfPara (e : LineEnd) (endsPara : Bool) : Bool := e.paraEnd || (e.textEnd && endsPara)

/-- How a line is placed across the column: the alignment used, LOOSE, the slack, and for a justified line the
extras e and r (R54). -/
structure Placing where
  align : Align
  loose : Bool
  slack : Nat
  each : Nat
  ones : Nat
  deriving DecidableEq, Repr

/-- The alignment used and the flag LOOSE of a line (R54). `stretch` is J. -/
def placeLine (asked : Align) (e : LineEnd) (endsPara : Bool) (avail stretch : Nat) : Placing :=
  let width := naturalWidth e.kept
  if avail < width then ⟨.left, false, 0, 0, 0⟩
  else
    let slack := avail - width
    match asked with
    | .left => ⟨.left, false, slack, 0, 0⟩
    | .center => ⟨.center, false, slack, 0, 0⟩
    | .justify =>
      if e.paraEnd || e.lastOfPara endsPara || e.split then ⟨.left, false, slack, 0, 0⟩
      else
        let n := (e.kept.filter Placement.isSpace).length
        if n = 0 then ⟨.left, decide (stretch < slack), slack, 0, 0⟩
        else
          let each := slack / n
          let ones := slack - each * n
          let largest := if ones > 0 then each + 1 else each
          if largest ≤ stretch then ⟨.justify, false, slack, each, ones⟩ else ⟨.left, true, slack, 0, 0⟩

/-- The widths and pens of a line from a starting pen: each SPACE takes its extra, the first `ones` of them one more
(R55). -/
def setPens (justified : Bool) (each : Nat) : Nat → Nat → List Placement → List Placement
  | _, _, [] => []
  | pen, ones, p :: rest =>
    if justified && p.isSpace then
      let width := p.width + each + (if ones > 0 then 1 else 0)
      { p with pen := pen, width := width } :: setPens justified each (pen + width) (ones - 1) rest
    else { p with pen := pen } :: setPens justified each (pen + p.width) ones rest

/-- The line record of a line that began at text index `start` with an indent (R39, R54, R55). -/
def lineRecord (t : Template) (base start indent : Nat) (asked : Align) (endsPara : Bool) (e : LineEnd) : LineRecord :=
  let pl := placeLine asked e endsPara (t.measure - indent) t.stretch
  let pen := t.left + indent + (if pl.align = .center then pl.slack / 2 else 0)
  { isSet := true
    docStart := base + start
    docEnd := base + e.consumed
    align := pl.align
    indent := indent
    flags := ⟨pl.loose, e.split, e.hyphenated, e.paraEnd,
      e.hyphenMissing || e.kept.any fun p => p.kind == .void⟩
    placements := setPens (pl.align == .justify) pl.each pen pl.ones e.kept }

/-- The number of spaces at the head of the text (R47). -/
def leadingSpaces (cs : List TextChar) : Nat := (cs.takeWhile fun c => c.code == spaceCode).length

/-- How the building of a draft ended (R56). -/
structure DraftEnd where
  lines : List LineRecord
  status : ComposeStatus
  nextStart : Nat
  nextPara : Bool
  deriving DecidableEq, Repr

/-- The setter builds lines until `room` more are built or the text is used up (R42, R47, R56). -/
def buildDraft (fs : FaceStore) (t : Template) (text : List TextChar) (base : Nat) (asked : Align) (endsPara : Bool) :
    Nat → Nat → Bool → List LineRecord → DraftEnd
  | room, position, nextPara, lines =>
    let ahead := text.drop position
    let skipped := leadingSpaces ahead
    if text.length ≤ position + skipped then ⟨lines, .textDone, text.length, nextPara⟩
    else match room with
      | 0 => ⟨lines, .pageFull, position + skipped, nextPara⟩
      | room + 1 =>
        let indent := if nextPara then t.indent else 0
        let e := fillLine fs base (t.measure - indent) (ahead.drop skipped) (position + skipped) [] none
          (position + skipped)
        buildDraft fs t text base asked endsPara room e.consumed (e.lastOfPara endsPara)
          (lines ++ [lineRecord t base position indent asked endsPara e])

/-- The draft of a compose in flight, complete (R42). -/
def ComposeJob.finish (j : ComposeJob) (fs : FaceStore) (st : Setter) : DraftEnd :=
  buildDraft fs st.template st.text st.base j.align j.endsPara (st.template.capacity j.area - j.draft.length)
    j.position j.nextPara j.draft

/-- The compose result at compose done (R56). -/
def ComposeJob.result (j : ComposeJob) (d : DraftEnd) : ComposeResult :=
  ⟨d.status, j.area, d.lines.length, d.nextStart, d.nextPara⟩

/-- The line table with the lines of a draft in the slots of an area, and its other slots EMPTY (R44). -/
def swapDraft (a : Area) (draft : List LineRecord) (lines : LineTable) : LineTable :=
  mapPlaces
    (fun slot l => if a.holdsSlot slot then { l with record := draft.getD (slot - a.firstSlot) .blank } else l) lines

/-- A SET line slot that holds a placement of a face (R26). -/
def LineSlot.placesFace (l : LineSlot) (f : Nat) : Bool :=
  l.record.isSet && l.record.placements.any fun p => p.face == f

/-- The end of a TEXT LOAD stream: complete at a run boundary, otherwise recorded SHORT (R37). -/
def State.endTextStream (run : TextRun) (s : State) : State :=
  match run with
  | .face => s
  | _ => s.refuse Cmd.textLoad.code .short

end Sys2Proof.Machine
end

