-- ==== Sys2Proof/Machine/Ops.lean ====
section
/-! DEFINITION. The command link: framing bytes as they are clocked in, taking them from the FIFO, ending commands and
streams, replies, and the outputs that follow the state (11_the_command_link_and_events.md, R171 to R177).

Every meaning of a host command is one of the shared operations `atCommand` (the command acts at its command byte),
`atLastParam` (it acts at its last parameter byte) or a stream operation, applied to what the command does. Where the
byte at the front of the FIFO is not the one at which the row's command acts, the step that the row names cannot
take place and nothing changes (DESIGN CHOICE, safe: log entry 2). -/

namespace Sys2Proof.Machine

/-! ### Outputs -/

/-- The item takes one of the FIFO's 256 places (R171, R176). -/
def FifoItem.isByte : FifoItem → Bool
  | .byte _ _ => true
  | _ => false

/-- The bytes that the FIFO holds. -/
def Link.bytes (l : Link) : Nat := (l.fifo.filter FifoItem.isByte).length

/-- The FIFO holds 256 bytes (R176). -/
def Link.full (l : Link) : Bool := Config.fifoPlaces ≤ l.bytes

/-- The BUSY output (R175). -/
def State.busy (s : State) : Bool :=
  decide (Config.busyAbove < s.link.bytes) || s.power.startUp || s.power.waking

/-- The supply-enable output PSEN (R159). -/
def State.supplyEnable (s : State) : Bool := s.supply.state == .rising || s.supply.state == .on

/-- The MISO pin: high impedance while CS is high (11.8). -/
def State.misoPin (s : State) : Option Byte := if s.link.selected then some s.link.miso else none

/-! ### Small updates -/

/-- The link takes a new content. -/
def State.onLink (f : Link → Link) (s : State) : State := { s with link := f s.link }

/-- The command being taken becomes another. -/
def State.setTaking (t : Taking) (s : State) : State := s.onLink fun l => { l with taking := t }

/-- The FIFO's content behind its front item. -/
def State.dropFront (s : State) : State := s.onLink fun l => { l with fifo := l.fifo.tail }

/-! ### The end of a command or stream (R172, R173) -/

/-- A WAVE LOAD stream ends short: the table becomes ABSENT and the command is recorded SHORT (R147). -/
def State.endWaveStream (m : Mode) (band : Nat) (s : State) : State :=
  { s with drive := { s.drive with tables := put s.drive.tables (tableIndex m band) .absent } }.refuse
    Cmd.waveLoad.code .short

/-- The command being taken ends: a command short of its parameters is recorded SHORT, a stream applies its own rule
(R24, R37, R111, R147, R172, R173). -/
def State.endTaking (s : State) : State :=
  match s.link.taking with
  | .nothing => s
  | .ignoring => s
  | .params cmd _ => s.refuse cmd.code .short
  | .text run => s.endTextStream run
  | .glyph => s.endGlyphStream
  | .wave m band => s.endWaveStream m band
  | .image => s.endPortWork

/-- The front item has been taken and ends the command before it; `next` is what is being taken from now on. -/
def State.endCommand (next : Taking) (s : State) : State := s.dropFront.endTaking.setTaking next

/-- If the link has reached the place at which an overrun cut the command, the command ends there and its later
parameter bytes are ignored (R176). It is settled in the step that takes the byte before it (DEDUCED, unsafe: log
entry 4). -/
def State.settleCut (s : State) : State :=
  match s.link.fifo with
  | .cut :: _ => s.endCommand .ignoring
  | _ => s

/-! ### The arrival of a byte at which a command acts (R172, R173) -/

/-- A command without parameters acts at its command byte; in SLEEP it is refused ASLEEP unless it is one of the five
(R167, R172). -/
def State.atCommand (cmd : Cmd) (act : State → State) (s : State) : State :=
  match s.link.fifo with
  | .byte .command b :: _ =>
    if b = cmd.code then
      let s1 := s.endCommand .ignoring
      (if s1.power.asleep && !cmd.takenAsleep then s1.refuse cmd.code .asleep else act s1).settleCut
    else s
  | _ => s

/-- A command acts, or its stream header is judged, at its last parameter byte; `act` is given all of them (R172). -/
def State.atLastParam (cmd : Cmd) (act : List Byte → State → State) (s : State) : State :=
  match s.link.fifo, s.link.taking with
  | .byte .parameter b :: _, .params c got =>
    if c = cmd ∧ got.length + 1 = cmd.params then
      (act (got ++ [b]) (s.dropFront.setTaking .ignoring)).settleCut
    else s
  | _, _ => s

/-- A byte of an open stream is handed on; `stream` says whether the stream is the row's (R173). -/
def State.atStreamByte (stream : Taking → Bool) (act : Byte → State → State) (s : State) : State :=
  match s.link.fifo with
  | .byte .parameter b :: _ => if stream s.link.taking then (act b s.dropFront).settleCut else s
  | _ => s

/-! ### Replies (R174) -/

/-- The read of the reply has not acted (R174). -/
def Reply.unanswered (r : Reply) : Bool := r == .waiting || r == .waited

/-- A read has acted: its reply is open exactly when no item has been clocked in behind its last byte, and is
otherwise discarded (R174; DEDUCED, unsafe: log entry 6). -/
def State.giveReply (r : Reply) (s : State) : State :=
  if s.link.fifo.isEmpty ∧ s.link.reply.unanswered then s.onLink fun l => { l with reply := r } else s

/-- The reply of an accepted read: the dummy byte, then its data (R174). -/
def State.answer (data : List Byte) (s : State) : State := s.giveReply (.data (Config.dummyByte :: data))

/-- A read refused when it acts returns 0x00 in every position (R174). -/
def State.refuseRead (cmd : Cmd) (reason : Reason) (s : State) : State :=
  (s.refuse cmd.code reason).giveReply (.data [])

/-- The byte that a reply position returns and the reply that is left of it (R114, R174). -/
def State.replyByte (s : State) : Byte × Reply :=
  match s.link.reply with
  | .nothing => (0, .nothing)
  | .waiting => (0, .waited)
  | .waited => (0, .waited)
  | .data [] => (0, .data [])
  | .data (b :: rest) => (b, .data rest)
  | .image false plane next => (Config.dummyByte, .image true plane next)
  | .image true plane next =>
    if next < (s.port.size + 1) / 2 then (s.windowByte plane next, .image true plane (next + 1))
    else (0, .image true plane next)

/-! ### Bytes clocked in (R171, R175, R176) -/

/-- The framing that a command byte opens (R171). -/
def framingOf (b : Byte) : Framing :=
  match Cmd.ofCode b with
  | none => .spent
  | some c =>
    match c.kind with
    | .stream => .stream c
    | .read => if c.params = 0 then .reply else .fixed c c.params
    | .write => if c.params = 0 then .spent else .fixed c c.params

/-- The reply that a command byte opens: a read waits for its turn (R174). -/
def replyOf (b : Byte) : Reply :=
  match Cmd.ofCode b with
  | some c => if c.kind = .read then .waiting else .nothing
  | none => .nothing

/-- The framing after one more parameter byte of a fixed-length command (R171). -/
def framingAfter (c : Cmd) (left : Nat) : Framing :=
  if left ≤ 1 then (if c.kind = .read then .reply else .spent) else .fixed c (left - 1)

/-- An item joins the FIFO behind the others. -/
def Link.keep (l : Link) (i : FifoItem) : Link := { l with fifo := l.fifo ++ [i] }

/-- A command byte other than RESET is clocked in: it starts a new command, or at a full FIFO it is dropped and its
place is kept (R171, R176). -/
def State.clockCommand (b : Byte) (s : State) : State :=
  if s.link.full then
    (s.onLink fun l => { l.keep (.dropped b) with framing := .spent, reply := .nothing, miso := 0, selected := true }).raise
      .linkOverrun
  else s.onLink fun l =>
    { l.keep (.byte .command b) with framing := framingOf b, reply := replyOf b, miso := 0, selected := true }

/-- A byte is clocked in during the start-up: it is discarded and the reply byte reads 0x00 (R169). -/
def State.discardByte (s : State) : State := s.onLink fun l => { l with miso := 0, selected := true }

/-- The CS line rises: the command being framed and its reply end, and the rising keeps its place in the FIFO (R171,
R174). A parameter byte after it follows no command, also behind a complete or unknown one: it enters no FIFO and raises no
LINK_OVERRUN (DEDUCED, unsafe: log entry 4). During the start-up the link takes nothing (R169). -/
def State.csEdge (s : State) : State :=
  if s.power.startUp then s.onLink fun l => { l with selected := false }
  else s.onLink fun l => { l.keep .csRise with framing := .nothing, reply := .nothing, selected := false }

/-! ### Arrivals at which no command acts (R171, R172, R176) -/

/-- A CS rising arrives and ends the command or stream (R172, R173). -/
def State.csArrives (s : State) : State :=
  match s.link.fifo with
  | .csRise :: _ => s.endCommand .nothing
  | _ => s

/-- The place of a dropped command byte is reached: the command before it ends, and the lost one is recorded SHORT
(R176). -/
def State.droppedArrives (s : State) : State :=
  match s.link.fifo with
  | .dropped code :: _ => (s.endCommand .ignoring).refuse code .short
  | _ => s

/-- A command byte arrives whose code is not in the table: refused UNKNOWN; or one that acts at its command byte and
is not taken in SLEEP: refused ASLEEP (R167, R171). Both the command's own row and this one take that step (DEDUCED,
safe: log entry 5). -/
def State.unknownArrives (s : State) : State :=
  match s.link.fifo with
  | .byte .command b :: _ =>
    match Cmd.ofCode b with
    | none => ((s.endCommand .ignoring).refuse b .unknown).settleCut
    | some c =>
      if s.power.asleep ∧ c.params = 0 ∧ c.takenAsleep = false then
        ((s.endCommand .ignoring).refuse b .asleep).settleCut
      else s
  | _ => s

/-- The command byte of a command with parameters arrives: it ends the one before it and is judged ASLEEP in SLEEP
(R167, R172). -/
def State.openCommand (c : Cmd) (s : State) : State :=
  let s1 := s.endCommand .ignoring
  (if s1.power.asleep && !c.takenAsleep then s1.refuse c.code .asleep else s1.setTaking (.params c [])).settleCut

/-- A byte arrives at which no command acts: a command byte of a command with parameters, a parameter byte short of
the last one, or a parameter byte that is ignored (R172). -/
def State.byteArrives (s : State) : State :=
  match s.link.fifo with
  | .byte .command b :: _ =>
    match Cmd.ofCode b with
    | some c => if c.params = 0 then s else s.openCommand c
    | none => s
  | .byte .parameter b :: _ =>
    match s.link.taking with
    | .params c got =>
      if got.length + 1 < c.params then (s.dropFront.setTaking (.params c (got ++ [b]))).settleCut else s
    | .nothing => s.dropFront.settleCut
    | .ignoring => s.dropFront.settleCut
    | _ => s
  | .cut :: _ => s.settleCut
  | _ => s

end Sys2Proof.Machine
end

