-- ==== Sys2Proof/Machine/Reads.lean ====
section
/-! DEFINITION. The seven read commands as they act, and parameter bytes clocked in, of which the first in a reply position
finds a read that nothing stands ahead of already acted (11_the_command_link_and_events.md, R171, R174, R176). -/

namespace Sys2Proof.Machine

/-! ### The read commands -/

/-- STATUS READ returns the status record as it stands and changes nothing it reports (R181). -/
def State.statusRead (s : State) : State := s.answer s.statusRecord

/-- ID READ returns the identification (R170). -/
def State.idRead (s : State) : State := s.answer idRecord

/-- COMPOSE RESULT returns the setter state and the result record (R46). -/
def State.composeResult (s : State) : State := s.answer s.setter.resultRecord

/-- LINE READ returns the record of the named slot (R57). -/
def State.lineRead (ps : List Byte) (s : State) : State :=
  match lineSlotOf ps with
  | none => s.refuseRead .lineRead .badParam
  | some slot => s.answer ((s.lines.slot slot).bytes slot)

/-- FACE INFO (R28). -/
def State.faceInfo (ps : List Byte) (s : State) : State :=
  match faceOf ps with
  | none => s.refuseRead .faceInfo .badParam
  | some f => s.answer (s.faces.infoRecord f)

/-- ANSWER READ returns the slot as it stands and sets its read flag (R79). -/
def State.answerRead (s : State) : State :=
  let s1 := s.answer s.marks.answer.bytes
  { s1 with marks := { s1.marks with answer := { s1.marks.answer with read := true } } }

/-- IMAGE READ: refused BUSY during a fill, BAD_PARAM for no plane; otherwise the reply is the dummy byte and the
window's pixels, read as they are returned (R114). -/
def State.imageRead (ps : List Byte) (s : State) : State :=
  if s.port.isFilling then s.refuseRead .imageRead .busy
  else match planeOf ps with
    | none => s.refuseRead .imageRead .badParam
    | some plane => s.giveReply (.image false plane 0)

/-! ### A read with nothing ahead of it (R174) -/

/-- The arrival at which a read command acts, whichever it is (R174). -/
def State.takeRead (c : Cmd) (s : State) : State :=
  match c with
  | .statusRead => s.atCommand .statusRead State.statusRead
  | .idRead => s.atCommand .idRead State.idRead
  | .composeResult => s.atCommand .composeResult State.composeResult
  | .answerRead => s.atCommand .answerRead State.answerRead
  | .lineRead => s.atLastParam .lineRead State.lineRead
  | .faceInfo => s.atLastParam .faceInfo State.faceInfo
  | .imageRead => s.atLastParam .imageRead State.imageRead
  | _ => s

/-- The link takes the front item of a FIFO that holds no bytes but those of one read. -/
def State.takeFront (s : State) : State :=
  match s.link.fifo with
  | [] => s
  | .byte .command b :: _ =>
    match Cmd.ofCode b with
    | some c => if c.params = 0 then s.takeRead c else s.byteArrives
    | none => s
  | .byte .parameter _ :: _ =>
    match s.link.taking with
    | .params c got => if got.length + 1 = c.params then s.takeRead c else s.byteArrives
    | _ => s.byteArrives
  | .csRise :: _ => s.csArrives
  | .dropped _ :: _ => s.droppedArrives
  | .cut :: _ => s.settleCut

/-- The link takes items of the FIFO, at most `n` of them. -/
def takeItems : Nat → State → State
  | 0, s => s
  | n + 1, s => takeItems n s.takeFront

/-- No byte of the FIFO stands ahead of a command byte: every byte in it belongs to the command clocked in last. -/
def Link.noByteAhead (l : Link) : Bool :=
  ((l.fifo.filter FifoItem.isByte).drop 1).all fun i => match i with
    | .byte .command _ => false
    | _ => true

/-- A read that has no byte ahead of it in the FIFO acts before its first reply position; what stands in the FIFO without
taking a place, such as a CS rising, is dealt with before it (R174). A later position waits for the read's own step
(DEDUCED, safe: log entry 6). -/
def State.readAhead (s : State) : State :=
  if s.link.reply = .waiting ∧ s.link.noByteAhead = true then takeItems s.link.fifo.length s else s

/-! ### Parameter bytes clocked in (R171, R174, R176) -/

/-- A parameter byte is clocked in (R171, R174, R176). In a reply position it never enters the FIFO, and raises no
LINK_OVERRUN at a full one (DEDUCED, unsafe: log entry 13). -/
def State.clockParameter (b : Byte) (s : State) : State :=
  let quiet := s.onLink fun l => { l with miso := 0, selected := true }
  match s.link.framing with
  | .nothing => quiet
  | .reply =>
    let s1 := s.readAhead
    let r := s1.replyByte
    s1.onLink fun l => { l with miso := r.1, reply := r.2, selected := true }
  | .fixed c left =>
    if s.link.full then
      (quiet.onLink fun l => { l.keep .cut with framing := .spent, reply := .nothing }).raise .linkOverrun
    else quiet.onLink fun l => { l.keep (.byte .parameter b) with framing := framingAfter c left }
  | .stream _ =>
    if s.link.full then (quiet.onLink fun l => { l.keep .cut with framing := .spent }).raise .linkOverrun
    else quiet.onLink fun l => l.keep (.byte .parameter b)
  | .spent =>
    if s.link.full then quiet.raise .linkOverrun else quiet.onLink fun l => l.keep (.byte .parameter b)

end Sys2Proof.Machine
end

