-- ==== Sys2Proof/Machine/Resets.lean ====
section
/-! DEFINITION. The three reset causes, block by block, and the end of a start-up (R8, R13, R32, R59, R75, R90, R105,
R106, R141, R158, R169, R177). The levels of the inputs CSN and PGOOD are the host's and the supply's, and no reset
changes them. -/

namespace Sys2Proof.Machine

/-- Power-on: every block takes its power-on state and start-up begins (R169); the levels of the inputs stay (DESIGN
CHOICE, unsafe: log entry 12). -/
def State.powerOn (s : State) : State :=
  { State.reset with
    link := { Link.initial with selected := s.link.selected }
    supply := .initial s.supply.pgood
    pending := s.pending }

/-- A waveform table through the RESET pin or the RESET command: a LOADING table becomes ABSENT (R143, R158). -/
def Wave.afterReset : Wave → Wave
  | .loading _ _ => .absent
  | w => w

/-- The panel drive after the RESET pin: READY tables are kept, everything else takes its reset value (R158). The record of
the drive port, which R158 does not name, is all HOLD (DESIGN CHOICE, safe: log entry 15). -/
def PanelDrive.afterPin (d : PanelDrive) : PanelDrive :=
  { PanelDrive.initial with tables := mapAll Wave.afterReset d.tables }

/-- The RESET pin: every block takes its RESET-pin state and start-up begins (R169). -/
def State.pinReset (s : State) : State :=
  { s with
    link := { Link.initial with selected := s.link.selected }
    events := .initial
    faces := .initial
    setter := .initial
    lines := .initial
    marks := .initial
    renderer := .initial
    port := .initial
    sched := .initial
    drive := s.drive.afterPin
    supply := .initial s.supply.pgood
    power := .initial }

/-- The link after the RESET command: FIFO and framing emptied, the last-refusal record kept (R177). -/
def Link.afterResetCommand (l : Link) : Link := { Link.initial with lastRefusal := l.lastRefusal, selected := true }

/-- The line setter after the RESET command: the template is kept (R13, R59). -/
def Setter.afterResetCommand (st : Setter) : Setter := { Setter.initial with template := st.template }

/-- The update scheduler after the RESET command; panel-known is lost if a slot was DRIVING (R8, R141). -/
def Scheduler.afterResetCommand (q : Scheduler) : Scheduler :=
  { q with
    queue := []
    slots := Vector.replicate 8 none
    panelKnown := q.panelKnown && !q.anyDriving
    settle := none
    tempHold := false
    waveHold := false }

/-- The age timer runs on from its age when the part is ACTIVE again (R153, R158, R168). -/
def AgeTimer.resume : AgeTimer → AgeTimer
  | .still => .running
  | a => a

/-- The panel drive after the RESET command: the frame in progress has no end (R158). The record of the drive port, which
R158 does not name, is all HOLD (DESIGN CHOICE, safe: log entry 15). -/
def PanelDrive.afterResetCommand (d : PanelDrive) : PanelDrive :=
  { d with tables := mapAll Wave.afterReset d.tables, age := d.age.resume, frame := none, driven := [] }

/-- The supply controller after the RESET command: OFF, timers IDLE, settings kept (R169). -/
def Supply.afterResetCommand (p : Supply) : Supply :=
  { p with state := .off, powerUp := none, filter := none, idle := none }

/-- Every block takes its RESET-command state; the request in service of the mark unit goes on (R76, R169). `taken` is the
part when the command was taken: what the planes and the scheduler keep is as it was then (R8, R106, R141). -/
def State.resetBlocks (taken s : State) : State :=
  { s with
    link := s.link.afterResetCommand
    events := { s.events with flags := 0 }
    faces := s.faces.afterResetCommand
    setter := s.setter.afterResetCommand
    lines := .initial
    marks := s.marks.afterResetCommand
    renderer := .initial
    image := taken.image
    port := { s.port with position := 0, state := .idle }
    sched := taken.sched.afterResetCommand
    drive := s.drive.afterResetCommand
    supply := s.supply.afterResetCommand
    power := ⟨false, false, false⟩ }

/-- The RESET command acts as its byte is clocked in: the FIFO's bytes are discarded, the command being taken is ended
at that point, and every block is reset (R177). A request that the ending posts is emptied by the same reset, and what its
scan would latch or start leaves no trace (R8, R106). A byte of a start-up is discarded (R169). -/
def State.resetCommand (s : State) : State :=
  if s.power.startUp then s.discardByte
  else State.resetBlocks s (s.onLink fun l => { l with fifo := [] }).endTaking

/-- A byte is clocked in (R169, R171, R177). -/
def State.clockByte (kind : ByteKind) (b : Byte) (s : State) : State :=
  if s.power.startUp then s.discardByte
  else match kind with
    | .command => if b = Cmd.reset.code then s.resetCommand else s.clockCommand b
    | .parameter => s.clockParameter b

/-- Start-up is done: the link begins framing bytes (R169). -/
def State.startUpEnds (s : State) : State := { s with power := { s.power with startUp := false } }

end Sys2Proof.Machine
end

