-- ==== Sys2Proof/Machine/DriveSteps.lean ====
section
/-! DEFINITION. Meanings of the rows of the panel drive (09_waveforms_and_temperature.md). -/

namespace Sys2Proof.Machine

open Host (Outcome)

/-- The panel drive takes a new content. -/
def State.onDrive (f : PanelDrive → PanelDrive) (s : State) : State := { s with drive := f s.drive }

/-- A waveform table takes a new content. -/
def PanelDrive.setTable (d : PanelDrive) (m : Mode) (band : Nat) (w : Wave) : PanelDrive :=
  { d with tables := put d.tables (tableIndex m band) w }

/-- A DRIVING slot uses the table of a mode and band (R145). -/
def Scheduler.usesTable (q : Scheduler) (m : Mode) (band : Nat) : Bool :=
  (List.range 8).any fun i => match q.slot i with
    | some d => d.mode == m && d.band == band
    | none => false

/-- WAVE LOAD's header: the checks of R145 in order, then the table is LOADING with no frames (R146). -/
def State.waveLoad (ps : List Byte) (s : State) : State :=
  match waveHeaderOf ps with
  | none => s.refuse Cmd.waveLoad.code .badParam
  | some (m, band, length) =>
    if s.sched.usesTable m band then s.refuse Cmd.waveLoad.code .inUse
    else (s.onDrive fun d => d.setTable m band (.loading length [])).setTaking (.wave m band)

/-- WAVE_LOAD (R145). -/
def execWaveLoad (s : State) : Outcome State Fault Refusal := .next (s.atLastParam .waveLoad State.waveLoad)

/-- A frame-data byte is stored; the last one makes the table READY, which is reported and scans (R146). -/
def State.waveByte (b : Byte) (s : State) : State :=
  match s.link.taking with
  | .wave m band =>
    match s.drive.table m band with
    | .loading n data =>
      if n * 64 ≤ data.length + 1 then
        ((s.onDrive fun d => d.setTable m band (.ready n (data ++ [b]))).setTaking .ignoring).scan
      else s.onDrive fun d => d.setTable m band (.loading n (data ++ [b]))
    | _ => s
  | _ => s

/-- The stream that is open is a WAVE LOAD. -/
def Taking.isWave : Taking → Bool
  | .wave _ _ => true
  | _ => false

/-- WAVE_FRAME_BYTE (R146). -/
def execWaveFrameByte (s : State) : Outcome State Fault Refusal :=
  .next (s.atStreamByte Taking.isWave State.waveByte)

/-- The highest band k whose lower edge Tk is at or below a reading; T0 is below every reading (R148). -/
def BandSettings.bandOf (b : BandSettings) (t : Int) : Nat :=
  (List.range 8).foldl (fun best k => if k = 0 ∨ look b.thresholds (k - 1) 0 ≤ t then k else best) 0

/-- The band after a reading t in band b: the first case of R150 that applies. -/
def PanelDrive.bandAfter (d : PanelDrive) (t : Int) : Nat :=
  let b := d.band
  if d.firstReading then d.bands.bandOf t
  else if b < 7 ∧ look d.bands.thresholds b 0 ≤ t then d.bands.bandOf t
  else if 0 < b ∧ t < look d.bands.thresholds (b - 1) 0 - (d.bands.hysteresis : Int) then d.bands.bandOf t
  else b

/-- The panel drive reports a usable reading, and the scheduler scans; otherwise it reports nothing (R151). -/
def State.reportReading (s : State) : State := if s.drive.usable then s.scan else s

/-- TEMP SET (R150, R151, R153). -/
def State.tempSet (ps : List Byte) (s : State) : State :=
  let t := temperatureOf ps
  (s.onDrive fun d => { d with
    reading := some t, age := .running, band := d.bandAfter t, firstReading := false }).reportReading

/-- TEMP_SET (R150). -/
def execTempSet (s : State) : Outcome State Fault Refusal := .next (s.atLastParam .tempSet State.tempSet)

/-- The band after BANDS SET: worked out afresh from a reading that is held (R149). -/
def BandSettings.bandHeld (b : BandSettings) (reading : Option Int) (band : Nat) : Nat :=
  match reading with
  | none => band
  | some t => b.bandOf t

/-- BANDS SET (R149, R151). -/
def State.bandsSet (ps : List Byte) (s : State) : State :=
  match bandSettingsOf ps with
  | none => s.refuse Cmd.bandsSet.code .badParam
  | some b => (s.onDrive fun d => { d with bands := b, band := b.bandHeld d.reading d.band }).reportReading

/-- BANDS_SET (R149). -/
def execBandsSet (s : State) : Outcome State Fault Refusal := .next (s.atLastParam .bandsSet State.bandsSet)

/-- The reading reaches 600 s of age: TEMP_STALE is raised once, and the timer does not run again until the next
reading (R153). -/
def State.ageExpires (s : State) : State :=
  if s.drive.age = .running then (s.onDrive fun d => { d with age := .notRunning }).raise .tempStale else s

/-- AGE_TIMER_EXPIRY (R153). -/
def execAgeTimerExpiry (s : State) : Outcome State Fault Refusal := .next s.ageExpires

/-- DRIVE SET: the clamped period applies from the next frame that starts (R157). -/
def State.driveSet (ps : List Byte) (s : State) : State := s.onDrive fun d => { d with period := framePeriodOf ps }

/-- DRIVE_SET (R157). -/
def execDriveSet (s : State) : Outcome State Fault Refusal := .next (s.atLastParam .driveSet State.driveSet)

end Sys2Proof.Machine
end

