-- ==== Sys2Proof/Machine/FaceSteps.lean ====
section
/-! DEFINITION. Meanings of the rows of the face store (02_glyph_faces.md). -/

namespace Sys2Proof.Machine

open Host (Outcome)

/-- The face store takes a new content. -/
def State.onFaces (f : FaceStore → FaceStore) (s : State) : State := { s with faces := f s.faces }

/-- FACE OPEN (R20). -/
def State.faceOpen (ps : List Byte) (s : State) : State :=
  match faceOpenOf ps with
  | none => s.refuse Cmd.faceOpen.code .badParam
  | some o =>
    if (s.faces.face o.face).state = .empty then s.onFaces fun fs => fs.setFace o.face o.record
    else s.refuse Cmd.faceOpen.code .wrongState

/-- FACE_OPEN (R20). -/
def execFaceOpen (s : State) : Outcome State Fault Refusal := .next (s.atLastParam .faceOpen State.faceOpen)

/-- An accepted glyph header with its run: the entry is made or replaced, and receives unless it needs no bytes
(R22, R23). -/
def State.acceptGlyph (g : Glyph) (run : Option Nat) (s : State) : State :=
  let entry := { g with firstBlock := run }
  let wants := bitmapBytes g.width g.height
  let s1 := s.onFaces fun fs => { fs with
    directory := placeGlyph entry (removeGlyph g.face g.code fs.directory)
    receiving := if wants = 0 then none else some ⟨g.face, g.code, 0⟩ }
  if wants = 0 then s1 else s1.setTaking .glyph

/-- GLYPH PUT's header: the checks of R21 in order, then R22. -/
def State.glyphPut (ps : List Byte) (s : State) : State :=
  match glyphOf ps with
  | none => s.refuse Cmd.glyphPut.code .badParam
  | some g =>
    if (s.faces.face g.face).state ≠ .loading then s.refuse Cmd.glyphPut.code .wrongState
    else if (s.faces.entry g.face g.code).isNone ∧ Config.directoryEntries ≤ s.faces.directory.length then
      s.refuse Cmd.glyphPut.code .full
    else if g.blockCount = 0 then s.acceptGlyph g none
    else match s.faces.freeRun g.blockCount with
      | none => s.refuse Cmd.glyphPut.code .noSpace
      | some b => s.acceptGlyph g (some b)

/-- GLYPH_PUT (R21). -/
def execGlyphPut (s : State) : Outcome State Fault Refusal := .next (s.atLastParam .glyphPut State.glyphPut)

/-- A bitmap byte of the receiving glyph is written to the pool; the last one completes the glyph (R23). -/
def State.glyphByte (b : Byte) (s : State) : State :=
  match s.faces.receiving with
  | none => s
  | some r =>
    match s.faces.entry r.face r.code with
    | none => s
    | some g =>
      let written := s.onFaces fun fs => { fs with
        pool := Memory.write (Config.blockBytes * g.firstBlock.getD 0 + r.got) b fs.pool }
      if bitmapBytes g.width g.height ≤ r.got + 1 then
        (written.onFaces fun fs => { fs with receiving := none }).setTaking .ignoring
      else written.onFaces fun fs => { fs with receiving := some { r with got := r.got + 1 } }

/-- The stream that is open is a GLYPH PUT. -/
def Taking.isGlyph : Taking → Bool
  | .glyph => true
  | _ => false

/-- GLYPH_BITMAP_BYTE (R23). -/
def execGlyphBitmapByte (s : State) : Outcome State Fault Refusal :=
  .next (s.atStreamByte Taking.isGlyph State.glyphByte)

/-- FACE SEAL (R25). -/
def State.faceSeal (ps : List Byte) (s : State) : State :=
  match faceOf ps with
  | none => s.refuse Cmd.faceSeal.code .badParam
  | some f =>
    if (s.faces.face f).state = .loading then
      s.onFaces fun fs => fs.setFace f { fs.face f with state := .ready }
    else s.refuse Cmd.faceSeal.code .wrongState

/-- FACE_SEAL (R25). -/
def execFaceSeal (s : State) : Outcome State Fault Refusal := .next (s.atLastParam .faceSeal State.faceSeal)

/-- Some SET line slot holds a placement of the face (R26). -/
def LineTable.usesFace (t : LineTable) (f : Nat) : Bool := t.toList.any fun l => l.placesFace f

/-- FACE RETIRE: the checks of R26 in order, then R27. -/
def State.faceRetire (ps : List Byte) (s : State) : State :=
  match faceOf ps with
  | none => s.refuse Cmd.faceRetire.code .badParam
  | some f =>
    if s.setter.job.isSome then s.refuse Cmd.faceRetire.code .busy
    else if s.lines.usesFace f then s.refuse Cmd.faceRetire.code .inUse
    else if (s.faces.face f).state = .empty then s
    else s.onFaces fun fs => fs.emptyFace f

/-- FACE_RETIRE (R26). -/
def execFaceRetire (s : State) : Outcome State Fault Refusal := .next (s.atLastParam .faceRetire State.faceRetire)

/-- FACE_INFO (R28). -/
def execFaceInfo (s : State) : Outcome State Fault Refusal := .next (s.atLastParam .faceInfo State.faceInfo)

end Sys2Proof.Machine
end

