-- ==== Sys2Proof/Machine/ImageSteps.lean ====
section
/-! DEFINITION. Meanings of the rows of the renderer, the arbiter and the image port (06, 07; R4). -/

namespace Sys2Proof.Machine

open Host (Outcome)

/-- RENDER_START (R92). -/
def execRenderStart (s : State) : Outcome State Fault Refusal := .next s.startRender

/-- RENDER_DONE: the writes of the box that still wait are granted, the last one among them, and the render is done
(R99, R103). -/
def execRenderDone (s : State) : Outcome State Fault Refusal := .next (grantUntilRendered s.waitingWrites s)

/-- ARBITER_WRITE_GRANT (R4). -/
def execArbiterWriteGrant (s : State) : Outcome State Fault Refusal := .next s.grantOne

/-- IMAGE WINDOW: refused BUSY during a fill, BAD_PARAM out of range; otherwise window, mode, and position 0 (R108). -/
def State.imageWindow (ps : List Byte) (s : State) : State :=
  if s.port.isFilling then s.refuse Cmd.imageWindow.code .busy
  else match imageWindowOf ps with
    | none => s.refuse Cmd.imageWindow.code .badParam
    | some w => { s with port := { s.port with window := w.1, mode := w.2, position := 0 } }

/-- IMAGE_WINDOW (R108). -/
def execImageWindow (s : State) : Outcome State Fault Refusal := .next (s.atLastParam .imageWindow State.imageWindow)

/-- IMAGE WRITE: refused BUSY during a fill; otherwise the port is WRITING and the stream open (R109). -/
def State.imageWrite (s : State) : State :=
  if s.port.isFilling then s.refuse Cmd.imageWrite.code .busy
  else { s with port := { s.port with state := .writing } }.setTaking .image

/-- IMAGE_WRITE (R109). -/
def execImageWrite (s : State) : Outcome State Fault Refusal := .next (s.atCommand .imageWrite State.imageWrite)

/-- A stream byte's two pixels are written, the high four bits first (R109). -/
def State.imageByte (b : Byte) (s : State) : State := (s.streamPixel (highPixel b)).streamPixel (lowPixel b)

/-- The stream that is open is an IMAGE WRITE. -/
def Taking.isImage : Taking → Bool
  | .image => true
  | _ => false

/-- IMAGE_WRITE_BYTE (R109). -/
def execImageWriteByte (s : State) : Outcome State Fault Refusal :=
  .next (s.atStreamByte Taking.isImage State.imageByte)

/-- IMAGE FILL: refused BUSY during a fill, BAD_PARAM out of range; a fill with nothing left to write completes at
once (R112). -/
def State.imageFill (ps : List Byte) (s : State) : State :=
  if s.port.isFilling then s.refuse Cmd.imageFill.code .busy
  else match imageFillOf ps with
    | none => s.refuse Cmd.imageFill.code .badParam
    | some (level, count) =>
      let left := min count (s.port.size - s.port.position)
      if left = 0 then s.endPortWork else { s with port := { s.port with state := .filling level left } }

/-- IMAGE_FILL (R112). -/
def execImageFill (s : State) : Outcome State Fault Refusal := .next (s.atLastParam .imageFill State.imageFill)

/-- FILL_COMPLETE: the writes of the fill that still wait are granted, the last one among them, and the fill completes
(R112). -/
def execFillComplete (s : State) : Outcome State Fault Refusal := .next (grantUntilFilled s.waitingWrites s)

/-- IMAGE_READ (R114). -/
def execImageRead (s : State) : Outcome State Fault Refusal := .next (s.atLastParam .imageRead State.imageRead)

end Sys2Proof.Machine
end

