-- ==== Sys2Proof/Machine/LinkSteps.lean ====
section
/-! DEFINITION. Meanings of the rows of the link, the resets and the event unit. -/

namespace Sys2Proof.Machine

open Host (Outcome)

/-- POWER_ON (R169). -/
def execPowerOn (s : State) : Outcome State Fault Refusal := .next s.powerOn

/-- RESET_PIN (R169). -/
def execResetPin (s : State) : Outcome State Fault Refusal := .next s.pinReset

/-- START_UP_DONE (R169). -/
def execStartUpDone (s : State) : Outcome State Fault Refusal := .next s.startUpEnds

/-- BYTE_CLOCKED_IN (R171, R174 to R176). -/
def execByteClockedIn (kind : ByteKind) (value : Byte) (s : State) : Outcome State Fault Refusal :=
  .next (s.clockByte kind value)

/-- CS_RISING: the edge of the line, or the arrival of a rising kept in the FIFO (R171, R172). -/
def execCsRising (phase : CsPhase) (s : State) : Outcome State Fault Refusal :=
  .next (match phase with
    | .edge => s.csEdge
    | .arrival => s.csArrives)

/-- DROPPED_COMMAND_PLACE (R176). -/
def execDroppedCommandPlace (s : State) : Outcome State Fault Refusal := .next s.droppedArrives

/-- UNKNOWN_COMMAND (R171). -/
def execUnknownCommand (s : State) : Outcome State Fault Refusal := .next s.unknownArrives

/-- FIFO_BYTE_ARRIVAL (R172). -/
def execFifoByteArrival (s : State) : Outcome State Fault Refusal := .next s.byteArrives

/-- RESET (R177). -/
def execReset (s : State) : Outcome State Fault Refusal := .next s.resetCommand

/-- STATUS_READ (R181). -/
def execStatusRead (s : State) : Outcome State Fault Refusal := .next (s.atCommand .statusRead State.statusRead)

/-- ID_READ (R170). -/
def execIdRead (s : State) : Outcome State Fault Refusal := .next (s.atCommand .idRead State.idRead)

/-- EVENT ACK clears every flag whose bit is 1 in the mask; bits 14 and 15 are ignored (R179). -/
def State.eventAck (ps : List Byte) (s : State) : State :=
  { s with events := { s.events with flags := s.events.flags &&& ~~~(maskOf ps 0 &&& eventBits) } }

/-- EVENT_ACK (R179). -/
def execEventAck (s : State) : Outcome State Fault Refusal := .next (s.atLastParam .eventAck State.eventAck)

/-- ROUTE SET replaces both masks, bits 14 and 15 stored as 0 (R180). -/
def State.routeSet (ps : List Byte) (s : State) : State :=
  { s with events := { s.events with maskA := maskOf ps 0 &&& eventBits, maskB := maskOf ps 2 &&& eventBits } }

/-- ROUTE_SET (R180). -/
def execRouteSet (s : State) : Outcome State Fault Refusal := .next (s.atLastParam .routeSet State.routeSet)

end Sys2Proof.Machine
end

