-- ==== Sys2Proof/Machine/MarkSteps.lean ====
section
/-! DEFINITION. Meanings of the rows of the mark unit (04_the_mark_table.md, 05_finding_marks.md). -/

namespace Sys2Proof.Machine

open Host (Outcome)

/-- A request arrives: BAD_PARAM if a field is out of range, BUSY if 4 requests wait, and otherwise it joins the
queue (R62, R63, R80). -/
def State.requestArrives (cmd : Cmd) (r : Option MarkRequest) (s : State) : State :=
  match r with
  | none => s.refuse cmd.code .badParam
  | some q =>
    if Config.markQueueDepth ≤ s.marks.queue.length then s.refuse cmd.code .busy
    else { s with marks := s.marks.join q }

/-- MARK_ADD (R62). -/
def execMarkAdd (s : State) : Outcome State Fault Refusal :=
  .next (s.atLastParam .markAdd fun ps => State.requestArrives .markAdd (markAddOf ps))

/-- MARK_RANGE (R62). -/
def execMarkRange (s : State) : Outcome State Fault Refusal :=
  .next (s.atLastParam .markRange fun ps => State.requestArrives .markRange (markRangeOf ps))

/-- MARK_STYLE (R62). -/
def execMarkStyle (s : State) : Outcome State Fault Refusal :=
  .next (s.atLastParam .markStyle fun ps => State.requestArrives .markStyle (markStyleOf ps))

/-- MARK_RETIRE (R62). -/
def execMarkRetire (s : State) : Outcome State Fault Refusal :=
  .next (s.atLastParam .markRetire fun ps => State.requestArrives .markRetire (markRetireOf ps))

/-- MARK_SWEEP (R62). -/
def execMarkSweep (s : State) : Outcome State Fault Refusal :=
  .next (s.atLastParam .markSweep fun ps => State.requestArrives .markSweep (markSweepOf ps))

/-- MARK_CLEAR arrives with its command byte (R62). -/
def execMarkClear (s : State) : Outcome State Fault Refusal :=
  .next (s.atCommand .markClear (State.requestArrives .markClear (markClearOf [])))

/-- MARK_GET (R80). -/
def execMarkGet (s : State) : Outcome State Fault Refusal :=
  .next (s.atLastParam .markGet fun ps => State.requestArrives .markGet (markGetOf ps))

/-- MARK_AT (R80). -/
def execMarkAt (s : State) : Outcome State Fault Refusal :=
  .next (s.atLastParam .markAt fun ps => State.requestArrives .markAt (markAtOf ps))

/-- MARK_SCAN (R80). -/
def execMarkScan (s : State) : Outcome State Fault Refusal :=
  .next (s.atLastParam .markScan fun ps => State.requestArrives .markScan (markScanOf ps))

/-- SCAN_NEXT arrives with its command byte (R80). -/
def execScanNext (s : State) : Outcome State Fault Refusal :=
  .next (s.atCommand .scanNext (State.requestArrives .scanNext (scanNextOf [])))

/-- The unit is IDLE and takes the oldest waiting request, if there is one (R63). -/
def State.nextService (s : State) : State := { s with marks := { s.marks with serving := none }.takeNext }

/-- Service done: the request in service acts as one event, and the unit takes the next (R63). -/
def State.serviceEnds (s : State) : State :=
  match s.marks.serving with
  | none => s
  | some r => (r.serve s).nextService

/-- SERVICE_DONE (R63). -/
def execServiceDone (s : State) : Outcome State Fault Refusal := .next s.serviceEnds

/-- ANSWER_READ (R79). -/
def execAnswerRead (s : State) : Outcome State Fault Refusal := .next (s.atCommand .answerRead State.answerRead)

end Sys2Proof.Machine
end

