-- ==== Sys2Proof/Machine/PowerSteps.lean ====
section
/-! DEFINITION. Meanings of the rows of sleep, wake and the supply controller (10_panel_supply_and_power_states.md). -/

namespace Sys2Proof.Machine

open Host (Outcome)

/-- Every block is idle, as SLEEP requires (R166). -/
def State.quietForSleep (s : State) : Bool :=
  s.setter.job.isNone && s.renderer.list.isEmpty && s.renderer.job.isNone && s.marks.serving.isNone &&
    s.marks.queue.isEmpty && !s.port.isFilling && s.sched.queue.isEmpty && !s.sched.anyDriving

/-- The age timer stands still through SLEEP (R153, R166). -/
def AgeTimer.pause : AgeTimer → AgeTimer
  | .running => .still
  | a => a

/-- SLEEP: refused BUSY unless every block is idle; otherwise the supply goes OFF and the timers stop (R166). -/
def State.enterSleep (s : State) : State :=
  if s.quietForSleep then
    { s with
      power := { s.power with asleep := true }
      supply := { s.supply with state := .off, powerUp := none, filter := none, idle := none }
      sched := { s.sched with settle := none }
      drive := { s.drive with age := s.drive.age.pause } }
  else s.refuse Cmd.sleep.code .busy

/-- SLEEP (R166). -/
def execSleep (s : State) : Outcome State Fault Refusal := .next (s.atCommand .sleep State.enterSleep)

/-- WAKE: in SLEEP the wake begins; in ACTIVE there is no effect (R168). -/
def State.beginWake (s : State) : State :=
  if s.power.asleep then { s with power := { s.power with waking := true } } else s

/-- WAKE (R168). -/
def execWake (s : State) : Outcome State Fault Refusal := .next (s.atCommand .wake State.beginWake)

/-- The wake ends: ACTIVE, and the age timer runs on (R168). -/
def State.wakeEnds (s : State) : State :=
  if s.power.waking then
    { s with
      power := { s.power with asleep := false, waking := false }
      drive := { s.drive with age := s.drive.age.resume } }
  else s

/-- WAKE_DONE (R168). -/
def execWakeDone (s : State) : Outcome State Fault Refusal := .next s.wakeEnds

/-- SUPPLY SET takes the clamped settings; running timers keep their lengths (R165). -/
def State.supplySet (ps : List Byte) (s : State) : State :=
  { s with supply := { s.supply with settings := supplySettingsOf ps } }

/-- SUPPLY_SET (R165). -/
def execSupplySet (s : State) : Outcome State Fault Refusal := .next (s.atLastParam .supplySet State.supplySet)

/-- SUPPLY CLEAR: in FAULT the supply becomes OFF and the scheduler scans (R164). -/
def State.supplyClear (s : State) : State :=
  if s.supply.state = .fault then { s with supply := { s.supply with state := .off } }.scan else s

/-- SUPPLY_CLEAR (R164). -/
def execSupplyClear (s : State) : Outcome State Fault Refusal := .next (s.atCommand .supplyClear State.supplyClear)

/-- Power-good rises: RISING starts the filter timer, ON takes the drop as a glitch (R160, R162). A filter time of 0
makes the supply ON at once. -/
def State.pgoodRises (s : State) : State :=
  if s.supply.pgood then s
  else
    let s1 := { s with supply := { s.supply with pgood := true } }
    match s1.supply.state with
    | .rising =>
      if s1.supply.settings.filterTime = 0 then s1.supplyOn
      else { s1 with supply := { s1.supply with filter := some s1.supply.settings.filterTime } }
    | .on => { s1 with supply := { s1.supply with filter := none } }
    | .off => s1
    | .fault => s1

/-- PGOOD_RISE (R160). -/
def execPgoodRise (s : State) : Outcome State Fault Refusal := .next s.pgoodRises

/-- Power-good falls: ON starts the filter timer, RISING sets it back to IDLE (R160, R162). A filter time of 0 makes
the fault at once. -/
def State.pgoodFalls (s : State) : State :=
  if !s.supply.pgood then s
  else
    let s1 := { s with supply := { s.supply with pgood := false } }
    match s1.supply.state with
    | .on =>
      if s1.supply.settings.filterTime = 0 then s1.enterFault
      else { s1 with supply := { s1.supply with filter := some s1.supply.settings.filterTime } }
    | .rising => { s1 with supply := { s1.supply with filter := none } }
    | .off => s1
    | .fault => s1

/-- PGOOD_FALL (R162). -/
def execPgoodFall (s : State) : Outcome State Fault Refusal := .next s.pgoodFalls

/-- The filter timer expires: RISING becomes ON, ON enters FAULT (R160, R162). -/
def State.filterExpires (s : State) : State :=
  if s.supply.filter.isNone then s
  else match s.supply.state with
    | .rising => s.supplyOn
    | .on => s.enterFault
    | .off => s
    | .fault => s

/-- FILTER_TIMER_EXPIRY (R162). -/
def execFilterTimerExpiry (s : State) : Outcome State Fault Refusal := .next s.filterExpires

/-- The power-up timer expires in RISING: the supply enters FAULT (R161). -/
def State.powerUpExpires (s : State) : State :=
  if s.supply.powerUp.isSome ∧ s.supply.state = .rising then s.enterFault else s

/-- POWER_UP_TIMER_EXPIRY (R161). -/
def execPowerUpTimerExpiry (s : State) : Outcome State Fault Refusal := .next s.powerUpExpires

/-- The idle timer expires: the supply becomes OFF and the filter timer is cancelled (R163). -/
def State.idleExpires (s : State) : State :=
  if s.supply.idle.isSome ∧ s.supply.state = .on then
    { s with supply := { s.supply with state := .off, filter := none, idle := none } }
  else s

/-- IDLE_TIMER_EXPIRY (R163). -/
def execIdleTimerExpiry (s : State) : Outcome State Fault Refusal := .next s.idleExpires

end Sys2Proof.Machine
end

