-- ==== Sys2Proof/Machine/RefreshSteps.lean ====
section
/-! DEFINITION. Meanings of the rows of the update scheduler (08_refresh_scheduling.md). -/

namespace Sys2Proof.Machine

open Host (Outcome)

/-- REFRESH posts an EXPLICIT request for the clamped rectangle (R138). -/
def State.refresh (ps : List Byte) (s : State) : State :=
  match refreshOf ps with
  | none => s.refuse Cmd.refresh.code .badParam
  | some r => s.post r

/-- REFRESH (R138). -/
def execRefresh (s : State) : Outcome State Fault Refusal := .next (s.atLastParam .refresh State.refresh)

/-- The full-panel request of the display and blank commands (R136, R137). -/
def panelRequest (m : Mode) : Request := ⟨.panel, m, .explicit, false⟩

/-- The display mode changes and its full-panel CLEAN request is posted; in the mode already in force nothing
happens (R136). -/
def State.setDisplay (inverted : Bool) (s : State) : State :=
  if s.sched.inverted = inverted then s
  else { s with sched := { s.sched with inverted := inverted } }.post (panelRequest .clean)

/-- DISPLAY_NORMAL (R136). -/
def execDisplayNormal (s : State) : Outcome State Fault Refusal :=
  .next (s.atCommand .displayNormal (State.setDisplay false))

/-- DISPLAY_INVERT (R136). -/
def execDisplayInvert (s : State) : Outcome State Fault Refusal :=
  .next (s.atCommand .displayInvert (State.setDisplay true))

/-- BLANK ON removes the pending RENDER and WINDOW entries and posts a full-panel CLEAN request (R137). -/
def State.blankOn (s : State) : State :=
  if s.sched.blank then s
  else { s with sched := { s.sched with
      blank := true
      queue := s.sched.queue.filter fun (e : Request) => !(e.origin == Origin.render || e.origin == Origin.window) } }.post
    (panelRequest .clean)

/-- BLANK_ON (R137). -/
def execBlankOn (s : State) : Outcome State Fault Refusal := .next (s.atCommand .blankOn State.blankOn)

/-- BLANK OFF posts a full-panel GRAY request (R137). -/
def State.blankOff (s : State) : State :=
  if s.sched.blank then { s with sched := { s.sched with blank := false } }.post (panelRequest .gray) else s

/-- BLANK_OFF (R137). -/
def execBlankOff (s : State) : Outcome State Fault Refusal := .next (s.atCommand .blankOff State.blankOff)

/-- SCHED SET replaces the five settings (R139). -/
def State.schedSet (ps : List Byte) (s : State) : State :=
  match schedSettingsOf ps with
  | none => s.refuse Cmd.schedSet.code .badParam
  | some c => { s with sched := { s.sched with settings := c } }

/-- SCHED_SET (R139). -/
def execSchedSet (s : State) : Outcome State Fault Refusal := .next (s.atLastParam .schedSet State.schedSet)

/-- The frame timer expires: a frame end, if a frame is in progress (R154, R155). -/
def State.frameExpires (s : State) : State := if s.drive.frame.isSome then s.frameEnds else s

/-- FRAME_END (R155). -/
def execFrameEnd (s : State) : Outcome State Fault Refusal := .next s.frameExpires

/-- The settle timer expires, if it is RUNNING (R135). -/
def State.settleTimerExpires (s : State) : State := if s.sched.settle.isSome then s.settleExpires else s

/-- SETTLE_TIMER_EXPIRY (R135). -/
def execSettleTimerExpiry (s : State) : Outcome State Fault Refusal := .next s.settleTimerExpires

end Sys2Proof.Machine
end

