-- ==== Sys2Proof/Machine/SetterSteps.lean ====
section
/-! DEFINITION. Meanings of the rows of the template, the text buffer and the composes (01, 03). -/

namespace Sys2Proof.Machine

open Host (Outcome)

/-- The line setter takes a new content. -/
def State.onSetter (f : Setter → Setter) (s : State) : State := { s with setter := f s.setter }

/-- A compose is in flight: the setter is SETTING (R42). -/
def State.composing (s : State) : Bool := s.setter.job.isSome

/-- Some line slot of any area is SET. -/
def LineTable.anySet (t : LineTable) : Bool := t.toList.any fun l => l.record.isSet

/-- The renderer has work: its list holds an entry or it is rendering a slot (R14, R92). -/
def Renderer.hasWork (r : Renderer) : Bool := !r.list.isEmpty || r.job.isSome

/-- Every slot's rendered signature and length become absent (R15). -/
def LineTable.forget (t : LineTable) : LineTable := mapAll (fun l => { l with signature := none, length := none }) t

/-- TEMPLATE SET: the checks of R14 in order, then the whole template and the signatures (R15). -/
def State.templateSet (ps : List Byte) (s : State) : State :=
  if s.composing then s.refuse Cmd.templateSet.code .busy
  else if s.lines.anySet then s.refuse Cmd.templateSet.code .wrongState
  else if s.renderer.hasWork then s.refuse Cmd.templateSet.code .wrongState
  else if (templateOf ps).legal then
    { s.onSetter (fun st => { st with template := templateOf ps }) with lines := s.lines.forget }
  else s.refuse Cmd.templateSet.code .badParam

/-- TEMPLATE_SET (R14). -/
def execTemplateSet (s : State) : Outcome State Fault Refusal := .next (s.atLastParam .templateSet State.templateSet)

/-- TEXT LOAD's header: the buffer is emptied and takes the base offset, and the stream is open at a run boundary
(R34). -/
def State.textLoad (ps : List Byte) (s : State) : State :=
  if s.composing then s.refuse Cmd.textLoad.code .busy
  else if Config.baseLimit < field ps 0 4 then s.refuse Cmd.textLoad.code .badParam
  else (s.onSetter fun st => { st with text := [], base := field ps 0 4 }).setTaking (.text .face)

/-- TEXT_LOAD (R34). -/
def execTextLoad (s : State) : Outcome State Fault Refusal := .next (s.atLastParam .textLoad State.textLoad)

/-- A load faults: it is recorded BAD_PARAM and its later bytes are ignored (R35). -/
def State.textFault (s : State) : State := (s.refuse Cmd.textLoad.code .badParam).setTaking .ignoring

/-- A complete code point of a run: it is appended, or the load faults or is truncated (R35, R36). `left` counts the
code points of the run with this one. -/
def State.textCode (face left code : Nat) (s : State) : State :=
  if Config.codeLimit < code then s.textFault
  else if Config.textLimit ≤ s.setter.text.length then (s.raise .textTruncated).setTaking .ignoring
  else (s.onSetter fun st => { st with text := st.text ++ [⟨code, face⟩] }).setTaking
    (.text (if left ≤ 1 then .face else .code face (left - 1) []))

/-- A run byte of a TEXT LOAD stream (R35). -/
def State.textByte (b : Byte) (s : State) : State :=
  match s.link.taking with
  | .text .face => if 15 < b.toNat then s.textFault else s.setTaking (.text (.count b.toNat))
  | .text (.count face) => if b.toNat = 0 then s.textFault else s.setTaking (.text (.code face b.toNat []))
  | .text (.code face left got) =>
    if got.length < 2 then s.setTaking (.text (.code face left (got ++ [b])))
    else s.textCode face left (fromBytes (got ++ [b]))
  | _ => s

/-- The stream that is open is a TEXT LOAD. -/
def Taking.isText : Taking → Bool
  | .text _ => true
  | _ => false

/-- TEXT_LOAD_BYTE (R35). -/
def execTextLoadByte (s : State) : Outcome State Fault Refusal := .next (s.atStreamByte Taking.isText State.textByte)

/-- Every character from an index on names a READY face (R41). -/
def State.facesReady (s : State) (start : Nat) : Bool :=
  (s.setter.text.drop start).all fun c => (s.faces.face c.face).state == .ready

/-- COMPOSE: the checks of R41 in order, then SETTING with an empty draft (R42). -/
def State.compose (ps : List Byte) (s : State) : State :=
  if s.composing then s.refuse Cmd.compose.code .busy
  else match composeOf s.setter.text.length ps with
    | none => s.refuse Cmd.compose.code .badParam
    | some o =>
      if s.facesReady o.start then
        s.onSetter fun st => { st with
          job := some ⟨o.area, o.align, o.startsPara, o.endsPara, o.start, o.start, [], o.startsPara⟩ }
      else s.refuse Cmd.compose.code .wrongState

/-- COMPOSE (R41). -/
def execCompose (s : State) : Outcome State Fault Refusal := .next (s.atLastParam .compose State.compose)

/-- Compose done, as one event (R44). -/
def State.composeEnds (s : State) : State :=
  match s.setter.job with
  | none => s
  | some j =>
    let d := j.finish s.faces s.setter
    let s1 := { s with
      lines := swapDraft j.area d.lines s.lines
      renderer := { s.renderer with
        list := listSlots (fun slot => j.area.holdsSlot slot && (s.setter.template.boxTop slot).isSome) .page
          s.renderer.list }
      setter := { s.setter with job := none, result := j.result d } }
    s1.recomputeOnPage.raise .composeDone

/-- COMPOSE_DONE (R44); the whole draft is built here (DEDUCED, safe: log entry 10). -/
def execComposeDone (s : State) : Outcome State Fault Refusal := .next s.composeEnds

/-- COMPOSE CANCEL: a compose in flight is dropped with the result CANCELLED (R45). -/
def State.composeCancel (s : State) : State :=
  match s.setter.job with
  | none => s
  | some j =>
    (s.onSetter fun st => { st with job := none, result := ⟨.cancelled, j.area, 0, j.start, j.startsPara⟩ }).raise
      .composeDone

/-- COMPOSE_CANCEL (R45). -/
def execComposeCancel (s : State) : Outcome State Fault Refusal :=
  .next (s.atCommand .composeCancel State.composeCancel)

/-- COMPOSE_RESULT (R46). -/
def execComposeResult (s : State) : Outcome State Fault Refusal :=
  .next (s.atCommand .composeResult State.composeResult)

/-- LINE_READ (R57). -/
def execLineRead (s : State) : Outcome State Fault Refusal := .next (s.atLastParam .lineRead State.lineRead)

/-- The slot is SET and belongs to one of the areas (R58). -/
def LineTable.clears (t : LineTable) (areas : List Area) (slot : Nat) : Bool :=
  (t.slot slot).record.isSet && areas.any fun a => a.holdsSlot slot

/-- The SET slots of the areas become EMPTY and are listed, and the on-page flags are worked out afresh (R58, R74). -/
def State.clearAreas (areas : List Area) (s : State) : State :=
  let s1 := { s with
    lines := mapPlaces (fun slot (l : LineSlot) => if s.lines.clears areas slot then { l with record := .blank } else l) s.lines
    renderer := { s.renderer with list := listSlots (s.lines.clears areas) .page s.renderer.list } }
  if (List.range 210).any (s.lines.clears areas) then s1.recomputeOnPage else s

/-- PAGE CLEAR (R58). -/
def State.pageClear (ps : List Byte) (s : State) : State :=
  if s.composing then s.refuse Cmd.pageClear.code .busy
  else match clearAreasOf ps with
    | none => s.refuse Cmd.pageClear.code .badParam
    | some areas => s.clearAreas areas

/-- PAGE_CLEAR (R58). -/
def execPageClear (s : State) : Outcome State Fault Refusal := .next (s.atLastParam .pageClear State.pageClear)

end Sys2Proof.Machine
end

