-- ==== Sys2Proof/Machine/Dispatch.lean ====
section
/-! DEFINITION. The meaning of every command of the opcode table, one arm for each. -/

namespace Sys2Proof.Machine

def exec (i : Instr) (s : State) : Host.Outcome State Fault Refusal :=
  match i with
  | .powerOn => Sys2Proof.Machine.execPowerOn s
  | .resetPin => Sys2Proof.Machine.execResetPin s
  | .startUpDone => Sys2Proof.Machine.execStartUpDone s
  | .byteClockedIn kind value => Sys2Proof.Machine.execByteClockedIn kind value s
  | .csRising phase => Sys2Proof.Machine.execCsRising phase s
  | .droppedCommandPlace => Sys2Proof.Machine.execDroppedCommandPlace s
  | .unknownCommand => Sys2Proof.Machine.execUnknownCommand s
  | .statusRead => Sys2Proof.Machine.execStatusRead s
  | .idRead => Sys2Proof.Machine.execIdRead s
  | .eventAck => Sys2Proof.Machine.execEventAck s
  | .routeSet => Sys2Proof.Machine.execRouteSet s
  | .sleep => Sys2Proof.Machine.execSleep s
  | .wake => Sys2Proof.Machine.execWake s
  | .wakeDone => Sys2Proof.Machine.execWakeDone s
  | .reset => Sys2Proof.Machine.execReset s
  | .templateSet => Sys2Proof.Machine.execTemplateSet s
  | .textLoad => Sys2Proof.Machine.execTextLoad s
  | .textLoadByte => Sys2Proof.Machine.execTextLoadByte s
  | .compose => Sys2Proof.Machine.execCompose s
  | .composeDone => Sys2Proof.Machine.execComposeDone s
  | .composeCancel => Sys2Proof.Machine.execComposeCancel s
  | .composeResult => Sys2Proof.Machine.execComposeResult s
  | .lineRead => Sys2Proof.Machine.execLineRead s
  | .pageClear => Sys2Proof.Machine.execPageClear s
  | .faceOpen => Sys2Proof.Machine.execFaceOpen s
  | .glyphPut => Sys2Proof.Machine.execGlyphPut s
  | .glyphBitmapByte => Sys2Proof.Machine.execGlyphBitmapByte s
  | .faceSeal => Sys2Proof.Machine.execFaceSeal s
  | .faceRetire => Sys2Proof.Machine.execFaceRetire s
  | .faceInfo => Sys2Proof.Machine.execFaceInfo s
  | .markAdd => Sys2Proof.Machine.execMarkAdd s
  | .markRange => Sys2Proof.Machine.execMarkRange s
  | .markStyle => Sys2Proof.Machine.execMarkStyle s
  | .markRetire => Sys2Proof.Machine.execMarkRetire s
  | .markSweep => Sys2Proof.Machine.execMarkSweep s
  | .markClear => Sys2Proof.Machine.execMarkClear s
  | .markGet => Sys2Proof.Machine.execMarkGet s
  | .markAt => Sys2Proof.Machine.execMarkAt s
  | .markScan => Sys2Proof.Machine.execMarkScan s
  | .scanNext => Sys2Proof.Machine.execScanNext s
  | .serviceDone => Sys2Proof.Machine.execServiceDone s
  | .answerRead => Sys2Proof.Machine.execAnswerRead s
  | .renderStart => Sys2Proof.Machine.execRenderStart s
  | .renderDone => Sys2Proof.Machine.execRenderDone s
  | .imageWindow => Sys2Proof.Machine.execImageWindow s
  | .imageWrite => Sys2Proof.Machine.execImageWrite s
  | .imageWriteByte => Sys2Proof.Machine.execImageWriteByte s
  | .imageFill => Sys2Proof.Machine.execImageFill s
  | .fillComplete => Sys2Proof.Machine.execFillComplete s
  | .imageRead => Sys2Proof.Machine.execImageRead s
  | .refresh => Sys2Proof.Machine.execRefresh s
  | .displayNormal => Sys2Proof.Machine.execDisplayNormal s
  | .displayInvert => Sys2Proof.Machine.execDisplayInvert s
  | .blankOn => Sys2Proof.Machine.execBlankOn s
  | .blankOff => Sys2Proof.Machine.execBlankOff s
  | .schedSet => Sys2Proof.Machine.execSchedSet s
  | .frameEnd => Sys2Proof.Machine.execFrameEnd s
  | .settleTimerExpiry => Sys2Proof.Machine.execSettleTimerExpiry s
  | .waveLoad => Sys2Proof.Machine.execWaveLoad s
  | .waveFrameByte => Sys2Proof.Machine.execWaveFrameByte s
  | .bandsSet => Sys2Proof.Machine.execBandsSet s
  | .tempSet => Sys2Proof.Machine.execTempSet s
  | .ageTimerExpiry => Sys2Proof.Machine.execAgeTimerExpiry s
  | .driveSet => Sys2Proof.Machine.execDriveSet s
  | .supplySet => Sys2Proof.Machine.execSupplySet s
  | .supplyClear => Sys2Proof.Machine.execSupplyClear s
  | .pgoodRise => Sys2Proof.Machine.execPgoodRise s
  | .pgoodFall => Sys2Proof.Machine.execPgoodFall s
  | .filterTimerExpiry => Sys2Proof.Machine.execFilterTimerExpiry s
  | .powerUpTimerExpiry => Sys2Proof.Machine.execPowerUpTimerExpiry s
  | .idleTimerExpiry => Sys2Proof.Machine.execIdleTimerExpiry s
  | .fifoByteArrival => Sys2Proof.Machine.execFifoByteArrival s
  | .arbiterWriteGrant => Sys2Proof.Machine.execArbiterWriteGrant s

end Sys2Proof.Machine
end

