-- ==== Sys2Proof/Safety.lean ====
section
/-! DEFINITION. What counts as a safe run of the G460, and the words the claims are made in.

The part has no fault of its own: it gives every case of wrong, untimely or colliding input an outcome (00_scope.md,
section 5). A run is safe when it keeps the laws that the manual states for the whole machine: the bounds of its queues
and scores, the order of its tables, areas and runs that do not overlap, a panel that is driven only while its supply is
on, and a part in SLEEP that stands still. -/

namespace Sys2Proof.Machine

/-! ### Where a command stands in the FIFO (R171 to R173) -/

/-- The command byte of `c` is the next thing that the link takes. -/
def State.AtCommandByte (s : State) (c : Cmd) : Prop := ∃ rest, s.link.fifo = .byte .command c.code :: rest

/-- The last (header) parameter byte of `c` is the next thing that the link takes; `ps` are all its parameters. -/
def State.AtLastParam (s : State) (c : Cmd) (ps : List Byte) : Prop :=
  ∃ got b rest, s.link.taking = .params c got ∧ s.link.fifo = .byte .parameter b :: rest ∧ ps = got ++ [b] ∧
    ps.length = c.params

/-- The parameter byte `b` is the next thing that the link takes. -/
def State.AtParam (s : State) (b : Byte) : Prop := ∃ rest, s.link.fifo = .byte .parameter b :: rest

/-- The state in which a command acts at its command byte: the byte has left the FIFO and has ended the command or
stream before it (R172, R173). -/
def State.begun (s : State) : State := s.endCommand .ignoring

/-- The state in which a command acts at its last parameter byte: the byte has left the FIFO, and parameter bytes that
follow are ignored (R172). -/
def State.paramsTaken (s : State) : State := s.dropFront.setTaking .ignoring

/-- The row of the opcode table at which a named command acts. -/
def Cmd.row : Cmd → Instr
  | .statusRead => .statusRead
  | .idRead => .idRead
  | .eventAck => .eventAck
  | .routeSet => .routeSet
  | .sleep => .sleep
  | .wake => .wake
  | .reset => .reset
  | .templateSet => .templateSet
  | .textLoad => .textLoad
  | .compose => .compose
  | .composeCancel => .composeCancel
  | .composeResult => .composeResult
  | .lineRead => .lineRead
  | .pageClear => .pageClear
  | .faceOpen => .faceOpen
  | .glyphPut => .glyphPut
  | .faceSeal => .faceSeal
  | .faceRetire => .faceRetire
  | .faceInfo => .faceInfo
  | .markAdd => .markAdd
  | .markRange => .markRange
  | .markStyle => .markStyle
  | .markRetire => .markRetire
  | .markSweep => .markSweep
  | .markClear => .markClear
  | .markGet => .markGet
  | .markAt => .markAt
  | .markScan => .markScan
  | .scanNext => .scanNext
  | .answerRead => .answerRead
  | .imageWindow => .imageWindow
  | .imageWrite => .imageWrite
  | .imageFill => .imageFill
  | .imageRead => .imageRead
  | .refresh => .refresh
  | .displayNormal => .displayNormal
  | .displayInvert => .displayInvert
  | .blankOn => .blankOn
  | .blankOff => .blankOff
  | .schedSet => .schedSet
  | .waveLoad => .waveLoad
  | .bandsSet => .bandsSet
  | .tempSet => .tempSet
  | .driveSet => .driveSet
  | .supplySet => .supplySet
  | .supplyClear => .supplyClear

/-- The reply of a read that acts: it is open when nothing has been clocked in behind the read and its reply positions
still wait, and is discarded otherwise (R174). -/
def State.replyIfOpen (r : Reply) (p : State) : Reply :=
  if p.link.fifo = [] ∧ (p.link.reply = .waiting ∨ p.link.reply = .waited) then r else p.link.reply

/-! ### Laws of the whole machine -/

/-- The FIFO holds at most 256 bytes (R176). -/
def State.FifoBounded (s : State) : Prop := s.link.bytes ≤ 256

/-- The pending queue holds at most 16 requests, and two DRIVING slots share no pixel (R117, R122). -/
def State.SchedulerSound (s : State) : Prop :=
  s.sched.queue.length ≤ 16 ∧
  ∀ i j d e, i < 8 → j < 8 → i ≠ j → s.sched.slot i = some d → s.sched.slot j = some e →
    ∀ x y, ¬ (d.rect.holds x y = true ∧ e.rect.holds x y = true)

/-- Every ghost score lies in 0 to 255 (R131). -/
def State.GhostInRange (s : State) : Prop := ∀ z, look s.sched.ghost z 0 ≤ 255

/-- A note tag, where there is one, is 1 to 255 (R60). -/
def tagInRange (tag : Option Nat) : Prop := ∀ n, tag = some n → 1 ≤ n ∧ n ≤ 255

/-- The fields of a mark lie in their ranges (R60). -/
def Mark.InRange (m : Mark) : Prop :=
  1 ≤ m.id ∧ m.id ≤ 65535 ∧ m.start < m.stop ∧ m.stop - m.start ≤ 65535 ∧ m.layer ≤ 3 ∧ tagInRange m.tag

/-- The fields of a request lie in their ranges (R62, R80). -/
def MarkRequest.InRange : MarkRequest → Prop
  | .add id start stop style shade layer tag =>
    (MarkRequest.add id start stop style shade layer tag).legal = true ∧ tagInRange tag
  | .restyle id style shade layer tag muted =>
    (MarkRequest.restyle id style shade layer tag muted).legal = true ∧ tagInRange tag
  | r => r.legal = true

/-- The mark table is in order, with distinct ids, at most 512 records and every field in its range; at most 4 requests
wait, all with fields in range, and none waits at an IDLE unit (R60 to R63). -/
def State.MarksSound (s : State) : Prop :=
  s.marks.table.Pairwise (fun a b => a.before b = true) ∧ (s.marks.table.map Mark.id).Nodup ∧
  s.marks.table.length ≤ 512 ∧ (∀ m ∈ s.marks.table, m.InRange) ∧
  s.marks.queue.length ≤ 4 ∧ (∀ r ∈ s.marks.queue, r.InRange) ∧ (∀ r, s.marks.serving = some r → r.InRange) ∧
  (s.marks.serving = none → s.marks.queue = [])

/-- The render list holds line slots in slot order, each once (R91). -/
def State.RenderListSound (s : State) : Prop :=
  s.renderer.list.Pairwise (fun a b => a.1 < b.1) ∧ ∀ e ∈ s.renderer.list, e.1 < 210

/-- The planes, the drive port and the glyph pool are in canonical form, so that contents that read alike are equal
data. -/
def State.Canonical (s : State) : Prop :=
  s.image.target.wf = true ∧ s.image.current.wf = true ∧ s.image.goal.wf = true ∧
  Points.wf Drive.hold s.drive.driven = true ∧ s.faces.pool.wf = true

/-- The runs of two glyphs share no block (R19). -/
def Glyph.apart (g h : Glyph) : Prop :=
  ∀ a b, g.firstBlock = some a → h.firstBlock = some b → a + g.blockCount ≤ b ∨ b + h.blockCount ≤ a

/-- A directory entry is as its header and the pool make it (R17 to R19, R21). -/
def Glyph.Sound (g : Glyph) : Prop :=
  g.face ≤ 15 ∧ g.blockCount = bitmapBlocks g.width g.height ∧ (g.firstBlock = none ↔ g.blockCount = 0) ∧
  ∀ a, g.firstBlock = some a → a + g.blockCount ≤ 8192

/-- Keys are distinct and rise, runs lie in the pool and do not overlap, an EMPTY face has no entry, and an entry
receives exactly while its GLYPH PUT stream is open, in a LOADING face (R17, R19, R22 to R24). -/
def State.FacesSound (s : State) : Prop :=
  s.faces.directory.length ≤ 4096 ∧
  s.faces.directory.Pairwise (fun g h => g.face < h.face ∨ (g.face = h.face ∧ g.code < h.code)) ∧
  s.faces.directory.Pairwise Glyph.apart ∧ (∀ g ∈ s.faces.directory, g.Sound) ∧
  (∀ g ∈ s.faces.directory, (s.faces.face g.face).state ≠ .empty) ∧
  (s.faces.receiving = none ↔ s.link.taking ≠ .glyph) ∧
  ∀ r, s.faces.receiving = some r → ∃ g ∈ s.faces.directory, g.face = r.face ∧ g.code = r.code ∧
    r.got < bitmapBytes g.width g.height ∧ (s.faces.face r.face).state = .loading

/-- The template is one that TEMPLATE SET takes, a SET line has a line box under it, a range that is not empty, and at
most 255 placements, a listed slot and a slot being rendered have one, and the draft of a compose in flight is still
to be built (R11, R13, R39, R42, R52, R91, R99). -/
def State.LinesSound (s : State) : Prop :=
  s.setter.template.legal = true ∧
  (∀ slot, (s.lines.slot slot).record.isSet = true →
    (s.setter.template.boxTop slot).isSome = true ∧
    (s.lines.slot slot).record.docStart < (s.lines.slot slot).record.docEnd ∧
    (s.lines.slot slot).record.placements.length ≤ 255) ∧
  (∀ e ∈ s.renderer.list, (s.setter.template.boxTop e.1).isSome = true) ∧
  (∀ j, s.renderer.job = some j →
    (s.setter.template.boxTop j.slot).isSome = true ∧ j.written < 1248 * s.setter.template.pitch) ∧
  ∀ j, s.setter.job = some j → j.draft = []

/-- An inclusive rectangle of the panel (R2). -/
def Rect.onPanel (r : Rect) : Prop := r.x0 ≤ r.x1 ∧ r.x1 ≤ 1247 ∧ r.y0 ≤ r.y1 ∧ r.y1 ≤ 1663

/-- Every rectangle of a request, of a DRIVING slot and of the window is a rectangle of the panel, and so is every line
box, under a template that TEMPLATE SET takes (R13, R106, R116, R122). -/
def State.RectsOnPanel (s : State) : Prop :=
  (∀ e ∈ s.sched.queue, e.rect.onPanel) ∧ (∀ i d, s.sched.slot i = some d → d.rect.onPanel) ∧
  s.port.window.onPanel ∧ s.setter.template.legal = true

/-- The write position lies in 0 to N, a fill has as many writes left as the window has room for, and no write stream is
open during a fill (R106, R109, R112, R113). -/
def State.PortSound (s : State) : Prop :=
  s.port.position ≤ s.port.size ∧
  ∀ v left, s.port.state = .filling v left →
    1 ≤ left ∧ s.port.position + left ≤ s.port.size ∧ s.link.taking ≠ .image

/-- The panel is driven only with the supply ON, frames run only while a slot drives, and the settle and idle timers run
only while the panel is quiet (R124, R134, R154, R163). -/
def State.DriveSound (s : State) : Prop :=
  (s.supply.state ≠ .on → s.sched.anyDriving = false) ∧ (s.drive.frame ≠ none → s.sched.anyDriving = true) ∧
  (s.sched.settle ≠ none → s.sched.anyDriving = false ∧ s.sched.queue = []) ∧
  (s.supply.idle ≠ none → s.sched.anyDriving = false ∧ s.sched.queue = [])

/-- In SLEEP every block is idle, the supply is OFF, no timer runs, and the link holds only commands that SLEEP takes
(R142, R153, R166, R167). -/
def State.SleepSound (s : State) : Prop :=
  (s.drive.frame ≠ none → s.sched.anyDriving = true) ∧
  (s.power.asleep = true →
    s.quietForSleep = true ∧ s.supply.state = .off ∧ s.supply.powerUp = none ∧ s.supply.filter = none ∧
    s.supply.idle = none ∧ s.sched.settle = none ∧ s.drive.age ≠ .running ∧
    (s.link.taking = .nothing ∨ s.link.taking = .ignoring ∨
      ∃ c got, s.link.taking = .params c got ∧ c.takenAsleep = true))

/-- A safe state keeps every law. -/
structure State.Safe (s : State) : Prop where
  fifo : s.FifoBounded
  scheduler : s.SchedulerSound
  ghost : s.GhostInRange
  marks : s.MarksSound
  renderList : s.RenderListSound
  canonical : s.Canonical
  faces : s.FacesSound
  lines : s.LinesSound
  drive : s.DriveSound
  rects : s.RectsOnPanel
  port : s.PortSound
  sleep : s.SleepSound

/-! ### Frames: the blocks that a command leaves as they are -/

/-- Every block other than the link and the event unit is as it was. -/
def State.SameBlocks (s t : State) : Prop :=
  t.faces = s.faces ∧ t.setter = s.setter ∧ t.lines = s.lines ∧ t.marks = s.marks ∧ t.renderer = s.renderer ∧
  t.image = s.image ∧ t.port = s.port ∧ t.sched = s.sched ∧ t.drive = s.drive ∧ t.supply = s.supply ∧
  t.power = s.power ∧ t.pending = s.pending

/-- A slot stands in the render list. -/
def State.Listed (s : State) (slot : Nat) : Prop := ∃ cause, (slot, cause) ∈ s.renderer.list

end Sys2Proof.Machine
end

