-- ==== Sys2Proof/Certificates/Slice0/Obligations.lean ====
section
/-! DEFINITION. The statements for the provers, in the order of OBLIGATIONS.json. -/

section

open Sys2Proof Sys2Proof.Machine

/-! ### The queue of commands -/

/-- A step of a state with a command at the front of its queue is that command run on the state with the queue's rest; with
no command waiting the block idles. No rule of the spec: the queue is the model's (log entry 1). -/
def Obligations.StepRunsFrontCommand : Prop :=
  ∀ (s : State) (c : Instr) (rest : List Instr),
    (s.pending = c :: rest → step s = exec c { s with pending := rest }) ∧ (s.pending = [] → step s = .next s)

/-- Every row, in every state, answers a next state, and leaves the waiting commands alone. 00_scope.md, section 5, gives an
outcome in every case of input; that a row in a state that does not offer its event changes nothing, so that no meaning
stops, is the model's choice (log entry 2), and so is the queue that is left alone (log entry 1). -/
def Obligations.EveryRowCompletes : Prop :=
  ∀ (c : Instr) (s : State), ∃ t, exec c s = .next t ∧ t.pending = s.pending

/-! ### The command link -/

/-- A command byte clocked in (R171, R174, R176): a byte names a command exactly when it is that command's code in the table
of 11.6; below 256 bytes the byte enters the FIFO and is framed by that table; at 256 bytes it is dropped, its place is
kept, and LINK_OVERRUN is raised. -/
def Obligations.CommandByteIsFramed : Prop :=
  (∀ (b : Byte) (c : Cmd), Cmd.ofCode b = some c ↔ b = c.code) ∧
  (∀ row ∈ ([
        (.statusRead, 0x01, 0, .read), (.idRead, 0x02, 0, .read), (.eventAck, 0x03, 2, .write),
        (.routeSet, 0x04, 4, .write), (.sleep, 0x05, 0, .write), (.wake, 0x06, 0, .write), (.reset, 0x07, 0, .write),
        (.templateSet, 0x10, 15, .write), (.textLoad, 0x11, 4, .stream), (.compose, 0x12, 6, .write),
        (.composeCancel, 0x13, 0, .write), (.composeResult, 0x14, 0, .read), (.lineRead, 0x15, 2, .read),
        (.pageClear, 0x16, 1, .write), (.faceOpen, 0x20, 8, .write), (.glyphPut, 0x21, 9, .stream),
        (.faceSeal, 0x22, 1, .write), (.faceRetire, 0x23, 1, .write), (.faceInfo, 0x24, 1, .read),
        (.markAdd, 0x30, 14, .write), (.markRange, 0x31, 10, .write), (.markStyle, 0x32, 7, .write),
        (.markRetire, 0x33, 2, .write), (.markSweep, 0x34, 8, .write), (.markClear, 0x35, 0, .write),
        (.markGet, 0x38, 2, .write), (.markAt, 0x39, 4, .write), (.markScan, 0x3A, 8, .write),
        (.scanNext, 0x3B, 0, .write), (.answerRead, 0x3C, 0, .read), (.imageWindow, 0x40, 9, .write),
        (.imageWrite, 0x41, 0, .stream), (.imageFill, 0x42, 4, .write), (.imageRead, 0x43, 1, .read),
        (.refresh, 0x50, 9, .write), (.displayNormal, 0x51, 0, .write), (.displayInvert, 0x52, 0, .write),
        (.blankOn, 0x53, 0, .write), (.blankOff, 0x54, 0, .write), (.schedSet, 0x55, 5, .write),
        (.waveLoad, 0x60, 3, .stream), (.bandsSet, 0x61, 10, .write), (.tempSet, 0x62, 1, .write),
        (.driveSet, 0x63, 1, .write), (.supplySet, 0x70, 3, .write), (.supplyClear, 0x71, 0, .write)] :
      List (Cmd × Byte × Nat × CmdKind)),
    row.1.code = row.2.1 ∧ row.1.params = row.2.2.1 ∧ row.1.kind = row.2.2.2) ∧
  ∀ (s : State) (b : Byte), s.power.startUp = false → b ≠ Cmd.reset.code →
    (s.link.bytes < 256 → ∃ framing reply,
      exec (.byteClockedIn .command b) s = .next { s with link := { s.link with
        fifo := s.link.fifo ++ [.byte .command b]
        framing := framing
        reply := reply
        miso := 0
        selected := true } } ∧
      (Cmd.ofCode b = none → framing = .spent ∧ reply = .nothing) ∧
      (∀ c, Cmd.ofCode b = some c →
        (c.kind = .stream → framing = .stream c) ∧
        (c.kind ≠ .stream → 0 < c.params → framing = .fixed c c.params) ∧
        (c.kind = .read → c.params = 0 → framing = .reply) ∧
        (c.kind = .write → c.params = 0 → framing = .spent) ∧
        (c.kind = .read → reply = .waiting) ∧ (c.kind ≠ .read → reply = .nothing))) ∧
    (256 ≤ s.link.bytes →
      exec (.byteClockedIn .command b) s = .next ({ s with link := { s.link with
        fifo := s.link.fifo ++ [FifoItem.dropped b]
        framing := .spent
        reply := .nothing
        miso := 0
        selected := true } }.raise .linkOverrun))

/-- A parameter byte clocked in outside reply positions (R171, R176): one that follows no command is ignored; below 256
bytes every other one enters the FIFO; at 256 bytes it is dropped with LINK_OVERRUN, and a command short of its
last parameter, or a stream, is cut at its place. That a byte after a command's last parameter enters the FIFO to be
ignored there, and that a byte after a CS rising follows no command, is the model's reading (log entry 4). -/
def Obligations.ParameterByteIsFramed : Prop :=
  ∀ (s : State) (b : Byte), s.power.startUp = false →
    let quiet : Link := { s.link with miso := 0, selected := true }
    (s.link.framing = .nothing → exec (.byteClockedIn .parameter b) s = .next { s with link := quiet }) ∧
    (s.link.bytes < 256 →
      (∀ c left, s.link.framing = .fixed c left → 2 ≤ left →
        exec (.byteClockedIn .parameter b) s = .next { s with link := { quiet with
          fifo := s.link.fifo ++ [.byte .parameter b], framing := .fixed c (left - 1) } }) ∧
      (∀ c, s.link.framing = .fixed c 1 →
        exec (.byteClockedIn .parameter b) s = .next { s with link := { quiet with
          fifo := s.link.fifo ++ [.byte .parameter b]
          framing := if c.kind = .read then .reply else .spent } }) ∧
      (∀ c, (s.link.framing = .stream c ∨ s.link.framing = .spent) →
        exec (.byteClockedIn .parameter b) s = .next { s with link := { quiet with
          fifo := s.link.fifo ++ [.byte .parameter b] } })) ∧
    (256 ≤ s.link.bytes →
      (∀ c left, s.link.framing = .fixed c left →
        exec (.byteClockedIn .parameter b) s = .next ({ s with link := { quiet with
          fifo := s.link.fifo ++ [FifoItem.cut], framing := .spent, reply := .nothing } }.raise .linkOverrun)) ∧
      (∀ c, s.link.framing = .stream c →
        exec (.byteClockedIn .parameter b) s = .next ({ s with link := { quiet with
          fifo := s.link.fifo ++ [FifoItem.cut], framing := .spent } }.raise .linkOverrun)) ∧
      (s.link.framing = .spent →
        exec (.byteClockedIn .parameter b) s = .next ({ s with link := quiet }.raise .linkOverrun)))

/-- A byte clocked in a reply position enters no FIFO and shifts out the reply (R114, R174). In the first one, a read that has
no byte ahead of it in the FIFO acts before the position: whatever row takes the front of the FIFO may be taken first,
until it is empty, and an accepted STATUS READ or ID READ gives the dummy byte at once. Otherwise a position returns
0x00 until the read has acted, then the reply's bytes one by one, and 0x00 after them; for IMAGE READ the dummy byte and
then two pixels of the window a byte, the low four bits 0 after the last pixel of an odd window. That the two pixels are
read as their byte is clocked, and that a read that is late at its first position waits for its own row, is the model's
(log entry 6); so is that a byte in a reply position at a full FIFO is not dropped and raises no LINK_OVERRUN (log entry
13). -/
def Obligations.ReplyPositionsShiftOutTheReply : Prop :=
  ∀ (s : State) (v : Byte), s.power.startUp = false → s.link.framing = .reply →
    let w := s.port.window.x1 - s.port.window.x0 + 1
    let level := fun (plane : PlaneName) (k : Nat) =>
      ((if plane = .target then s.image.target else s.image.current).level (s.port.window.x0 + k % w)
        (s.port.window.y0 + k / w)).val
    let noByteAhead := ∀ a u b, s.link.fifo = a ++ .byte .command u :: b → ∀ i ∈ a, ∀ k x, i ≠ FifoItem.byte k x
    let takesFront := fun row : Instr =>
      (∃ c rest, s.link.fifo = .byte .command (Cmd.code c) :: rest ∧ c.kind = .read ∧
        row = if c.params = 0 then c.row else .fifoByteArrival) ∨
      (∃ b rest c got, s.link.fifo = .byte .parameter b :: rest ∧ s.link.taking = .params c got ∧ c.kind = .read ∧
        row = if got.length + 1 = c.params then c.row else .fifoByteArrival) ∨
      (∃ rest, s.link.fifo = .csRise :: rest ∧ row = .csRising .arrival) ∨
      (∃ code rest, s.link.fifo = .dropped code :: rest ∧ row = .droppedCommandPlace)
    (∀ row t, s.link.reply = .waiting → noByteAhead → takesFront row → exec row s = .next t →
      exec (.byteClockedIn .parameter v) s = exec (.byteClockedIn .parameter v) t) ∧
    (∀ c : Cmd, (c = .statusRead ∨ c = .idRead) → s.link.reply = .waiting → s.link.fifo = [.byte .command c.code] →
      ∃ t, exec (.byteClockedIn .parameter v) s = .next t ∧ t.link.miso = 0xA5) ∧
    ((s.link.reply ≠ .waiting ∨ s.link.fifo = [] ∨ ¬ noByteAhead) → ∃ miso reply,
      exec (.byteClockedIn .parameter v) s = .next { s with link := { s.link with
        miso := miso, reply := reply, selected := true } } ∧
      (s.link.reply = .nothing → miso = 0 ∧ reply = .nothing) ∧
      ((s.link.reply = .waiting ∨ s.link.reply = .waited) → miso = 0 ∧ reply = .waited) ∧
      (s.link.reply = .data [] → miso = 0 ∧ reply = .data []) ∧
      (∀ b rest, s.link.reply = .data (b :: rest) → miso = b ∧ reply = .data rest) ∧
      (∀ plane k, s.link.reply = .image false plane k → miso = 0xA5 ∧ reply = .image true plane k) ∧
      (∀ plane k, s.link.reply = .image true plane k →
        (2 * k < s.port.size →
          (miso.toNat / 16 = level plane (2 * k) ∧
            miso.toNat % 16 = (if 2 * k + 1 < s.port.size then level plane (2 * k + 1) else 0) ∧
            reply = .image true plane (k + 1))) ∧
        (s.port.size ≤ 2 * k → miso = 0 ∧ reply = .image true plane k)))

/-- During a start-up the link takes no bytes: they are discarded, they raise nothing and every reply byte is 0x00; CS
rising is not kept; and START_UP_DONE ends it (R169). -/
def Obligations.StartUpTakesNoBytes : Prop :=
  ∀ s : State,
    (s.power.startUp = true →
      (∀ kind b, exec (.byteClockedIn kind b) s = .next { s with link := { s.link with miso := 0, selected := true } }) ∧
      exec .reset s = .next { s with link := { s.link with miso := 0, selected := true } } ∧
      exec (.csRising .edge) s = .next { s with link := { s.link with selected := false } } ∧
      s.busy = true) ∧
    exec .startUpDone s = .next { s with power := { s.power with startUp := false } }

/-- What the end of a command or stream does, whatever ended it (R24, R37, R111, R147, R172, R173, R176): the front item
has left the FIFO; a command short of its parameters is recorded SHORT; a TEXT LOAD inside a run, a receiving glyph and
a table that is LOADING apply their short-stream rules; a write stream makes the port IDLE and posts its request. -/
def Obligations.EndOfCommandOrStream : Prop :=
  ∀ (s : State) (next : Taking),
    let q := s.dropFront
    ((s.link.taking = .nothing ∨ s.link.taking = .ignoring ∨ s.link.taking = .text .face) →
      s.endCommand next = q.setTaking next) ∧
    (∀ c got, s.link.taking = .params c got → s.endCommand next = (q.refuse c.code .short).setTaking next) ∧
    (∀ run, s.link.taking = .text run → run ≠ .face →
      s.endCommand next = (q.refuse 0x11 .short).setTaking next) ∧
    (∀ r, s.link.taking = .glyph → s.faces.receiving = some r →
      s.endCommand next = ({ q with faces := { s.faces with
        directory := s.faces.directory.filter fun g => !(g.face == r.face && g.code == r.code)
        receiving := none } }.refuse 0x21 .short).setTaking next) ∧
    (s.link.taking = .glyph → s.faces.receiving = none → s.endCommand next = q.setTaking next) ∧
    (∀ m band, s.link.taking = .wave m band →
      s.endCommand next = ({ q with drive := { s.drive with
        tables := put s.drive.tables (8 * m.rank + band) .absent } }.refuse 0x60 .short).setTaking next) ∧
    (s.link.taking = .image → s.port.mode = none →
      s.endCommand next = ({ q with port := { s.port with state := .idle } }).setTaking next) ∧
    (∀ m, s.link.taking = .image → s.port.mode = some m →
      s.endCommand next =
        (({ q with port := { s.port with state := .idle } }).post ⟨s.port.window, m, .window, false⟩).setTaking next)

/-- The places kept in the FIFO that end a command (R171, R172, R174, R176). CS rising is kept among the bytes and takes none
of their places; it ends the framing and the reply, and at its arrival the command being taken, and parameter bytes after
it follow no command. At the place of a command byte dropped at overrun the command before it ends and the lost one is
recorded SHORT with its code. At the place of a cut the command ends and the rest of its bytes are ignored. That a cut is
settled in the step that takes the byte before it, and that a byte after a CS rising follows no command, is the model's
(log entry 4). -/
def Obligations.KeptPlacesEndTheCommand : Prop :=
  ∀ s : State,
    (s.power.startUp = false → ∃ t, exec (.csRising .edge) s = .next t ∧ t.link.bytes = s.link.bytes ∧
      t = { s with link := { s.link with
        fifo := s.link.fifo ++ [FifoItem.csRise], framing := .nothing, reply := .nothing, selected := false } }) ∧
    (∀ rest, s.link.fifo = .csRise :: rest → exec (.csRising .arrival) s = .next (s.endCommand .nothing)) ∧
    (∀ code rest, s.link.fifo = .dropped code :: rest →
      exec .droppedCommandPlace s = .next ((s.endCommand .ignoring).refuse code .short)) ∧
    (∀ rest, s.link.fifo = .cut :: rest →
      s.settleCut = s.endCommand .ignoring ∧ exec .fifoByteArrival s = .next (s.endCommand .ignoring)) ∧
    ((∀ rest, s.link.fifo ≠ .cut :: rest) → s.settleCut = s)

/-- Bytes at which no named command acts (R167, R171, R172). A code that is not in the table is refused UNKNOWN in ACTIVE and
in SLEEP, and in SLEEP every command but five is refused ASLEEP at its command byte; the bytes after it are ignored. The
command byte of a command with parameters ends the one before it and opens its own; a parameter byte short of the last
one is kept; and a parameter byte to be ignored leaves the FIFO. That the refusal ASLEEP is taken by the own row of a
command without parameters and by UNKNOWN_COMMAND alike, and by FIFO_BYTE_ARRIVAL for one with parameters, is the model's
reading (log entry 5). -/
def Obligations.LinkTakesOrRefusesBytes : Prop :=
  (∀ (s : State) (b : Byte) (rest), s.link.fifo = .byte .command b :: rest → (∀ c : Cmd, b ≠ c.code) →
    exec .unknownCommand s = .next ((s.begun.refuse b .unknown).settleCut)) ∧
  (∀ (s : State) (c : Cmd), s.AtCommandByte c → s.power.asleep = true →
    c ≠ .wake → c ≠ .statusRead → c ≠ .eventAck → c ≠ .idRead → c ≠ .reset →
    (c.params = 0 →
      exec c.row s = .next ((s.begun.refuse c.code .asleep).settleCut) ∧
      exec .unknownCommand s = .next ((s.begun.refuse c.code .asleep).settleCut)) ∧
    (0 < c.params → exec .fifoByteArrival s = .next ((s.begun.refuse c.code .asleep).settleCut))) ∧
  (∀ s : State,
    (∀ c : Cmd, s.AtCommandByte c → 0 < c.params → (s.power.asleep = false ∨ c = .eventAck) →
      exec .fifoByteArrival s = .next (s.begun.setTaking (.params c [])).settleCut) ∧
    (∀ c got b, s.AtParam b → s.link.taking = .params c got → got.length + 1 < c.params →
      exec .fifoByteArrival s = .next (s.dropFront.setTaking (.params c (got ++ [b]))).settleCut) ∧
    (∀ b, s.AtParam b → (s.link.taking = .nothing ∨ s.link.taking = .ignoring) →
      exec .fifoByteArrival s = .next s.dropFront.settleCut))

/-! ### Resets -/

/-- Power-on (R8, R13, R32, R59, R75, R90, R105, R106, R141, R158, R169, R177): every block's state after it, from any
state. The levels of the inputs CSN and PGOOD are outside the part and stay (the model's, log entry 12); the drive port
is all HOLD (log entry 15). -/
def Obligations.PowerOnClearsThePart : Prop :=
  ∀ s : State, ∃ t, exec .powerOn s = .next t ∧
    (∀ x y, t.image.target.level x y = 15 ∧ t.image.current.level x y = 15 ∧ t.image.goal.level x y = 15) ∧
    (∀ f, (t.faces.face f) = .blank) ∧ t.faces.directory = [] ∧ t.faces.freeBlocks = 8192 ∧
    t.setter.text = [] ∧ t.setter.base = 0 ∧ t.setter.template = ⟨0, 1664, 0, 64, 1120, 48, 36, 0, 24, 15⟩ ∧
    t.setter.job = none ∧ t.setter.result = ⟨.none, .head, 0, 0, false⟩ ∧
    (∀ slot, t.lines.slot slot = ⟨.blank, none, none⟩) ∧
    t.marks.table = [] ∧ t.marks.queue = [] ∧ t.marks.serving = none ∧ t.marks.answer = ⟨.none, .none, 0, [], true⟩ ∧
    t.marks.scan = none ∧ t.renderer.list = [] ∧ t.renderer.job = none ∧
    t.port = ⟨⟨0, 0, 1247, 1663⟩, none, 0, .idle⟩ ∧
    t.sched.queue = [] ∧ (∀ i, t.sched.slot i = none) ∧ (∀ z, look t.sched.ghost z 0 = 0) ∧
    (∀ z, look t.sched.coarse z false = false) ∧ t.sched.panelKnown = false ∧ t.sched.inverted = false ∧
    t.sched.blank = false ∧ t.sched.settle = none ∧ t.sched.tempHold = false ∧ t.sched.waveHold = false ∧
    t.sched.settings = ⟨.gray, .fast, 40, 30, true⟩ ∧
    (∀ m band, t.drive.table m band = .absent) ∧ t.drive.bands = ⟨#v[5, 10, 15, 20, 25, 30, 40], 2, 0, 50⟩ ∧
    t.drive.reading = none ∧ t.drive.firstReading = true ∧ t.drive.band = 0 ∧ t.drive.age = .notRunning ∧
    t.drive.period = 12 ∧ t.drive.frame = none ∧
    t.supply.state = .off ∧ t.supplyEnable = false ∧ t.supply.powerUp = none ∧ t.supply.filter = none ∧
    t.supply.idle = none ∧ t.supply.settings = ⟨40, 2, 100⟩ ∧ t.power.asleep = false ∧ t.busy = true ∧
    t.power.waking = false ∧ t.power.startUp = true ∧ t.faces.receiving = none ∧
    (∀ k, Points.read Drive.hold t.drive.driven k = .hold) ∧
    t.link.fifo = [] ∧ t.link.framing = .nothing ∧ t.link.taking = .nothing ∧ t.link.reply = .nothing ∧
    t.link.miso = 0 ∧ t.link.lastRefusal = ⟨0, 0⟩ ∧ t.events = ⟨0, 0, 0⟩ ∧
    t.supply.pgood = s.supply.pgood ∧ t.link.selected = s.link.selected

/-- The RESET pin (R8, R13, R32, R59, R75, R90, R105, R106, R141, R158, R169, R177): as power-on, but the three planes and
the READY waveform tables are kept. That no reset changes the levels of CSN and PGOOD is the model's (log entry 12), as it
is that the drive port, which R158 does not name, is all HOLD (log entry 15), and that the arbiter's turn stays (log
entry 8). -/
def Obligations.ResetPinKeepsPlanesAndTables : Prop :=
  ∀ s : State, ∃ t u, exec .resetPin s = .next t ∧ exec .powerOn s = .next u ∧
    t.image = s.image ∧
    (∀ m band, band < 8 → t.drive.table m band =
      (match s.drive.table m band with
        | .ready n data => .ready n data
        | _ => .absent)) ∧
    t.drive = { u.drive with tables := t.drive.tables } ∧
    t.faces.faces = u.faces.faces ∧ t.faces.directory = [] ∧ t.faces.receiving = none ∧ t.setter = u.setter ∧
    t.lines = u.lines ∧ t.marks = u.marks ∧ t.renderer = u.renderer ∧ t.port = u.port ∧ t.sched = u.sched ∧
    t.supply = u.supply ∧ t.power = u.power ∧ t.link = u.link ∧ t.events = u.events

/-- The RESET command (R8, R13, R32, R59, R75 to R77, R90, R105, R106, R141, R158, R169, R177), clocked in at any fill of
the FIFO: the command being taken is ended first, its record stays and its flag does not; then every block takes the
state of its RESET-command column. The planes are kept, and panel-known is lost exactly if a slot was DRIVING when the
command was taken, whatever request the ending posts.That the row has CS low, and that the arbiter's turn stays,
is the model's (log entries 3 and 8). -/
def Obligations.ResetCommandKeepsWhatItMust : Prop :=
  ∀ s : State, s.power.startUp = false → ∃ t, exec .reset s = .next t ∧
    exec (.byteClockedIn .command 0x07) s = .next t ∧
    ∃ p : State, p = ({ s with link := { s.link with fifo := [] } }).endTaking ∧
    t.link = { Link.initial with lastRefusal := p.link.lastRefusal, selected := true } ∧
    t.events = { p.events with flags := 0 } ∧ t.image = s.image ∧
    (∀ f, f < 16 → t.faces.face f = (if (p.faces.face f).state = .ready then p.faces.face f else .blank)) ∧
    (∀ g, g ∈ t.faces.directory ↔ g ∈ p.faces.directory ∧ (p.faces.face g.face).state = .ready) ∧
    t.faces.receiving = none ∧ t.faces.pool = p.faces.pool ∧
    t.setter = ⟨[], 0, p.setter.template, none, ⟨.none, .head, 0, 0, false⟩⟩ ∧
    (∀ slot, t.lines.slot slot = ⟨.blank, none, none⟩) ∧
    t.marks.table = p.marks.table.map (fun m => { m with onPage := false }) ∧ t.marks.queue = [] ∧
    t.marks.serving = p.marks.serving ∧ t.marks.answer = ⟨.none, .none, 0, [], true⟩ ∧ t.marks.scan = none ∧
    t.renderer.list = [] ∧ t.renderer.job = none ∧
    t.port = { p.port with position := 0, state := .idle } ∧
    t.sched.queue = [] ∧ (∀ i, t.sched.slot i = none) ∧ t.sched.settle = none ∧ t.sched.tempHold = false ∧
    t.sched.waveHold = false ∧ t.sched.ghost = s.sched.ghost ∧ t.sched.coarse = s.sched.coarse ∧
    t.sched.panelKnown = (s.sched.panelKnown && !s.sched.anyDriving) ∧ t.sched.inverted = s.sched.inverted ∧
    t.sched.blank = s.sched.blank ∧ t.sched.settings = s.sched.settings ∧
    (∀ m band, band < 8 → t.drive.table m band =
      (match p.drive.table m band with
        | .ready n data => .ready n data
        | _ => .absent)) ∧
    t.drive.bands = p.drive.bands ∧ t.drive.reading = p.drive.reading ∧
    t.drive.firstReading = p.drive.firstReading ∧ t.drive.band = p.drive.band ∧
    t.drive.period = p.drive.period ∧ t.drive.frame = none ∧
    (t.drive.age = .notRunning ↔ p.drive.age = .notRunning) ∧ t.drive.age ≠ .still ∧
    t.supply.state = .off ∧ t.supply.powerUp = none ∧ t.supply.filter = none ∧ t.supply.idle = none ∧
    t.supply.settings = p.supply.settings ∧ t.power = ⟨false, false, false⟩

/-- The state after reset keeps every law of a safe state. -/
def Obligations.ResetStateIsSafe : Prop := State.reset.Safe

/-! ### Identification, status, events, power -/

/-- ID READ (R170), in ACTIVE, in SLEEP and during a wake: the dummy byte, the vendor code 0x57, the part code 0x0460 and
the revision 0x01, then 0x00 in every later position; nothing else changes and no event is raised; and during a
start-up every reply byte reads 0x00. -/
def Obligations.IdReadReturnsTheIdentification : Prop :=
  (∀ s : State, s.AtCommandByte .idRead →
    exec .idRead s = .next ({ s.begun with link := { s.begun.link with
      reply := s.begun.replyIfOpen (.data [0xA5, 0x57, 0x04, 0x60, 0x01]) } }).settleCut) ∧
  (∀ (s : State) (v : Byte), s.power.startUp = false → s.link.framing = .reply →
    (∀ b rest, s.link.reply = .data (b :: rest) → ∃ t, exec (.byteClockedIn .parameter v) s = .next t ∧
      t.link.miso = b ∧ t.link.reply = .data rest ∧ t.link.framing = .reply) ∧
    (s.link.reply = .data [] → ∃ t, exec (.byteClockedIn .parameter v) s = .next t ∧
      t.link.miso = 0 ∧ t.link.reply = .data [] ∧ t.link.framing = .reply)) ∧
  (∀ (s : State) (kind : ByteKind) (v : Byte), s.power.startUp = true →
    ∃ t, exec (.byteClockedIn kind v) s = .next t ∧ t.link.miso = 0)

/-- STATUS READ (R181), in ACTIVE, in SLEEP and during a wake: the 18 bytes of the status record as the values stand when
its command byte arrives; it changes nothing that it reports and clears no flag. -/
def Obligations.StatusReadReturnsTheRecord : Prop :=
  ∀ s : State, s.AtCommandByte .statusRead →
    let p := s.begun
    let yes : Bool → Byte := fun b => if b then 1 else 0
    let supply : Byte := match p.supply.state with
      | .off => 0
      | .rising => 1
      | .on => 2
      | .fault => 3
    let record : List Byte :=
      [yes p.power.asleep, yes p.setter.job.isSome, BitVec.ofNat 8 p.renderer.list.length,
        yes (p.marks.serving.isSome || !p.marks.queue.isEmpty), BitVec.ofNat 8 p.sched.queue.length,
        BitVec.ofNat 8 ((List.range 8).filter fun i => (p.sched.slot i).isSome).length, supply,
        BitVec.ofNat 8 p.drive.band,
        yes (match p.drive.reading with
          | none => false
          | some t => p.drive.bands.tmin ≤ t && t ≤ p.drive.bands.tmax),
        yes p.sched.panelKnown, yes p.sched.inverted, yes p.sched.blank,
        BitVec.ofNat 8 (p.setter.text.length / 256), BitVec.ofNat 8 p.setter.text.length,
        p.link.lastRefusal.code, p.link.lastRefusal.reason,
        BitVec.ofNat 8 (p.events.flags.toNat / 256), BitVec.ofNat 8 p.events.flags.toNat]
    exec .statusRead s = .next ({ p with link := { p.link with
      reply := p.replyIfOpen (.data (0xA5 :: record)) } }).settleCut

/-- The event unit (R178 to R180): each flag has its bit and each reason its code by the tables; raising a flag sets its bit alone; a refusal sets the record and raises
COMMAND_REFUSED; EVENT ACK clears the flags named by its mask, bits 14 and 15 ignored; ROUTE SET replaces both masks,
bits 14 and 15 stored as 0; and each interrupt line is driven while a flag routed to it is raised. -/
def Obligations.EventsAreRaisedClearedAndRouted : Prop :=
  ([Event.composeDone, .renderIdle, .refreshDone, .panelQuiet, .answerReady, .answerLost, .supplyFault, .tempRange,
    .tempStale, .noWaveform, .queueSqueeze, .commandRefused, .linkOverrun, .textTruncated].map Event.bit =
    [0, 1, 2, 3, 4, 5, 6, 7, 8, 9, 10, 11, 12, 13]) ∧
  ([Reason.unknown, .short, .badParam, .busy, .inUse, .notFound, .duplicate, .full, .noSpace, .wrongState,
    .asleep].map Reason.code = [1, 2, 3, 4, 5, 6, 7, 8, 9, 10, 11]) ∧
  (∀ (s : State) (e : Event) (i : Nat), i < 16 →
    (s.raise e).events.flags.getLsbD i = (s.events.flags.getLsbD i || i == e.bit)) ∧
  (∀ (s : State) (code : Byte) (reason : Reason),
    s.refuse code reason =
      ({ s with link := { s.link with lastRefusal := ⟨code, reason.code⟩ } }).raise .commandRefused) ∧
  (∀ (s : State) (ps : List Byte), s.AtLastParam .eventAck ps → ∃ f : BitVec 16,
    exec .eventAck s =
      .next ({ s.paramsTaken with events := { s.paramsTaken.events with flags := f } }).settleCut ∧
    ∀ i, i < 16 → f.getLsbD i = (s.events.flags.getLsbD i && !(decide (i < 14) && (field ps 0 2).testBit i))) ∧
  (∀ (s : State) (ps : List Byte), s.AtLastParam .routeSet ps → ∃ a b : BitVec 16,
    exec .routeSet s =
      .next ({ s.paramsTaken with events := { s.paramsTaken.events with maskA := a, maskB := b } }).settleCut ∧
    ∀ i, i < 16 → a.getLsbD i = (decide (i < 14) && (field ps 0 2).testBit i) ∧
      b.getLsbD i = (decide (i < 14) && (field ps 2 2).testBit i)) ∧
  (∀ s : State, (s.inta = true ↔ ∃ i, i < 16 ∧ s.events.flags.getLsbD i = true ∧ s.events.maskA.getLsbD i = true) ∧
    (s.intb = true ↔ ∃ i, i < 16 ∧ s.events.flags.getLsbD i = true ∧ s.events.maskB.getLsbD i = true))

/-- SLEEP in ACTIVE (R142, R153, R166): with every block idle the part enters SLEEP, the supply goes OFF from any state, its
timers and the settle timer stop, and the age timer stands still; otherwise it is refused BUSY and nothing else changes.
WAKE in SLEEP begins the wake, in ACTIVE it has no effect, and WAKE_DONE ends it (R168). -/
def Obligations.SleepAndWake : Prop :=
  (∀ s : State, s.AtCommandByte .sleep → s.begun.power.asleep = false →
    let p := s.begun
    let quiet := p.setter.job = none ∧ p.renderer.list = [] ∧ p.renderer.job = none ∧ p.marks.serving = none ∧
      p.marks.queue = [] ∧ (∀ v n, p.port.state ≠ .filling v n) ∧ p.sched.queue = [] ∧
      ∀ i, i < 8 → p.sched.slot i = none
    (quiet → exec .sleep s = .next ({ p with
      power := { p.power with asleep := true }
      supply := { p.supply with state := .off, powerUp := none, filter := none, idle := none }
      sched := { p.sched with settle := none }
      drive := { p.drive with age := if p.drive.age = AgeTimer.running then AgeTimer.still else p.drive.age } }).settleCut) ∧
    (¬ quiet → exec .sleep s = .next (p.refuse 0x05 .busy).settleCut)) ∧
  (∀ s : State, s.AtCommandByte .wake →
    (s.begun.power.asleep = true →
      exec .wake s = .next ({ s.begun with power := { s.begun.power with waking := true } }).settleCut ∧
      ({ s.begun with power := { s.begun.power with waking := true } } : State).busy = true) ∧
    (s.begun.power.asleep = false → exec .wake s = .next s.begun.settleCut)) ∧
  (∀ s : State, s.power.waking = true → exec .wakeDone s = .next { s with
    power := { s.power with asleep := false, waking := false }
    drive := { s.drive with age := if s.drive.age = AgeTimer.still then AgeTimer.running else s.drive.age } })

/-- SLEEP holds only an idle part (R142, R153, R166, R167): the law of SLEEP is kept by every step. -/
def Obligations.SleepHoldsAnIdlePart : Prop :=
  ∀ (s t : State), s.SleepSound → step s = .next t → t.SleepSound

/-- In SLEEP the blocks do no work and raise no events (R167): until a reset or wake done, no step changes a face, the text,
a line, a mark, the renderer, a plane, the port, the scheduler or the panel drive, and of the supply controller only
the ignored level of power-good follows the input; the flags that a step can raise are COMMAND_REFUSED and LINK_OVERRUN. -/
def Obligations.SleepingBlocksDoNoWork : Prop :=
  ∀ (c : Instr) (s t : State), s.SleepSound → s.power.asleep = true →
    c ≠ .powerOn → c ≠ .resetPin → c ≠ .reset → c ≠ .byteClockedIn .command 0x07 → c ≠ .wakeDone →
    exec c s = .next t →
    t.faces = s.faces ∧ t.setter = s.setter ∧ t.lines = s.lines ∧ t.marks = s.marks ∧ t.renderer = s.renderer ∧
    t.image = s.image ∧ t.port = s.port ∧ t.sched = s.sched ∧ t.drive = s.drive ∧
    t.supply = { s.supply with pgood := t.supply.pgood } ∧ t.power.asleep = true ∧
    ∀ i, i < 16 → i ≠ 11 → i ≠ 12 → t.events.flags.getLsbD i = true → s.events.flags.getLsbD i = true

/-! ### Template and text -/

/-- TEMPLATE SET (R13 to R15): the four checks in their order, each leaving the template; a template that passes replaces
all ten parameters and makes every rendered signature and length absent. -/
def Obligations.TemplateSetChecksInOrder : Prop :=
  ∀ (s : State) (ps : List Byte), s.AtLastParam .templateSet ps →
    let p := s.paramsTaken
    let T : Template := ⟨field ps 0 2, field ps 2 2, field ps 4 2, field ps 6 2, field ps 8 2, field ps 10 1,
      field ps 11 1, field ps 12 1, field ps 13 1, field ps 14 1⟩
    let legal := (T.headHeight = 0 ∨ (T.pitch ≤ T.headHeight ∧ T.headHeight ≤ 1664)) ∧
      (T.pitch ≤ T.bodyHeight ∧ T.bodyHeight ≤ 1664) ∧
      (T.footHeight = 0 ∨ (T.pitch ≤ T.footHeight ∧ T.footHeight ≤ 1664)) ∧
      T.left ≤ 1184 ∧ 64 ≤ T.measure ∧ T.measure ≤ 1248 ∧ T.left + T.measure ≤ 1248 ∧ 8 ≤ T.pitch ∧ T.pitch ≤ 255 ∧
      1 ≤ T.baseline ∧ T.baseline ≤ T.pitch - 1 ∧ T.indent ≤ 255 ∧ T.indent < T.measure ∧ T.stretch ≤ 255 ∧
      T.noteFace ≤ 15 ∧ T.headHeight + T.bodyHeight + T.footHeight = 1664
    let set := ∃ slot, slot < 210 ∧ (p.lines.slot slot).record.isSet = true
    let work := p.renderer.list ≠ [] ∨ p.renderer.job ≠ none
    (p.setter.job ≠ none → exec .templateSet s = .next (p.refuse 0x10 .busy).settleCut) ∧
    (p.setter.job = none → set → exec .templateSet s = .next (p.refuse 0x10 .wrongState).settleCut) ∧
    (p.setter.job = none → ¬ set → work → exec .templateSet s = .next (p.refuse 0x10 .wrongState).settleCut) ∧
    (p.setter.job = none → ¬ set → ¬ work → ¬ legal →
      exec .templateSet s = .next (p.refuse 0x10 .badParam).settleCut) ∧
    (p.setter.job = none → ¬ set → ¬ work → legal → ∃ lines : LineTable,
      exec .templateSet s =
        .next ({ p with setter := { p.setter with template := T }, lines := lines }).settleCut ∧
      ∀ slot, lines.slot slot = { p.lines.slot slot with signature := none, length := none })

/-- TEXT LOAD (R34 to R36): its header, and every byte of its runs. -/
def Obligations.TextLoadFillsTheBuffer : Prop :=
  (∀ (s : State) (ps : List Byte), s.AtLastParam .textLoad ps →
    let p := s.paramsTaken
    (p.setter.job ≠ none → exec .textLoad s = .next (p.refuse 0x11 .busy).settleCut) ∧
    (p.setter.job = none → 4294959103 < field ps 0 4 →
      exec .textLoad s = .next (p.refuse 0x11 .badParam).settleCut) ∧
    (p.setter.job = none → field ps 0 4 ≤ 4294959103 →
      exec .textLoad s = .next (({ p with setter := { p.setter with text := [], base := field ps 0 4 } }).setTaking
        (.text .face)).settleCut)) ∧
  (∀ (s : State) (b : Byte), s.AtParam b →
    let q := s.dropFront
    let fault := .next ((q.refuse 0x11 .badParam).setTaking .ignoring).settleCut
    (s.link.taking = .text .face →
      exec .textLoadByte s =
        (if b.toNat ≤ 15 then .next (q.setTaking (.text (.count b.toNat))).settleCut else fault)) ∧
    (∀ face, s.link.taking = .text (.count face) →
      exec .textLoadByte s =
        (if b = 0 then fault else .next (q.setTaking (.text (.code face b.toNat []))).settleCut)) ∧
    (∀ face left got, s.link.taking = .text (.code face left got) → got.length < 2 →
      exec .textLoadByte s = .next (q.setTaking (.text (.code face left (got ++ [b])))).settleCut) ∧
    (∀ face left (hi mid : Byte), s.link.taking = .text (.code face left [hi, mid]) →
      let code := 65536 * hi.toNat + 256 * mid.toNat + b.toNat
      (0x10FFFF < code → exec .textLoadByte s = fault) ∧
      (code ≤ 0x10FFFF → 8192 ≤ s.setter.text.length →
        exec .textLoadByte s = .next ((q.raise .textTruncated).setTaking .ignoring).settleCut) ∧
      (code ≤ 0x10FFFF → s.setter.text.length < 8192 →
        exec .textLoadByte s = .next (({ q with setter := { q.setter with
          text := s.setter.text ++ [(⟨code, face⟩ : TextChar)] } }).setTaking
            (.text (if left ≤ 1 then .face else .code face (left - 1) []))).settleCut)))

/-! ### Composing -/

/-- COMPOSE (R41, R42): its checks in their order, then SETTING with an empty draft. COMPOSE CANCEL in ACTIVE (R45): a compose
in flight is dropped with the result CANCELLED and COMPOSE_DONE raised, and nothing else changes; without one it has no
effect. -/
def Obligations.ComposeStartsAndIsCancelled : Prop :=
  (∀ (s : State) (ps : List Byte), s.AtLastParam .compose ps →
    let p := s.paramsTaken
    let area := field ps 0 1
    let start := field ps 1 2
    let align := field ps 3 1
    let bad := 2 < area ∨ p.setter.text.length < start ∨ 2 < align ∨ 1 < field ps 4 1 ∨ 1 < field ps 5 1 ∨
      (align = 2 ∧ area ≠ 1)
    let ready := ∀ c ∈ p.setter.text.drop start, (p.faces.face c.face).state = .ready
    (p.setter.job ≠ none → exec .compose s = .next (p.refuse 0x12 .busy).settleCut) ∧
    (p.setter.job = none → bad → exec .compose s = .next (p.refuse 0x12 .badParam).settleCut) ∧
    (p.setter.job = none → ¬ bad → ¬ ready → exec .compose s = .next (p.refuse 0x12 .wrongState).settleCut) ∧
    (p.setter.job = none → ¬ bad → ready →
      exec .compose s = .next ({ p with setter := { p.setter with
        job := some (⟨if area = 0 then .head else if area = 1 then .body else .foot,
          if align = 0 then .left else if align = 1 then .center else .justify,
          decide (field ps 4 1 = 1), decide (field ps 5 1 = 1), start, start, [],
          decide (field ps 4 1 = 1)⟩ : ComposeJob) } }).settleCut)) ∧
  (∀ s : State, s.AtCommandByte .composeCancel → s.begun.power.asleep = false →
    (s.begun.setter.job = none → exec .composeCancel s = .next s.begun.settleCut) ∧
    (∀ j, s.begun.setter.job = some j →
      exec .composeCancel s = .next ((({ s.begun with setter := { s.begun.setter with
        job := none
        result := ⟨.cancelled, j.area, 0, j.start, j.startsPara⟩ } } : State).raise .composeDone).settleCut)))

/-- Compose done (R44, R56, R74): the draft's lines stand in the area's slots in order and its other slots are EMPTY; the
rendered signatures stay; every slot of the area with a line box is listed with cause PAGE; the result is set; every
on-page flag is worked out against the new table; COMPOSE_DONE is raised; every other block is as it was. -/
def Obligations.ComposeDoneSwapsTheDraft : Prop :=
  ∀ (s : State) (j : ComposeJob), s.setter.job = some j → ∃ t, exec .composeDone s = .next t ∧
    let d := j.finish s.faces s.setter
    let inArea := fun slot => j.area.firstSlot ≤ slot ∧ slot < j.area.firstSlot + j.area.slotCount
    (∀ slot, slot < 210 → inArea slot → (t.lines.slot slot).record = d.lines.getD (slot - j.area.firstSlot) .blank) ∧
    (∀ slot, slot < 210 → ¬ inArea slot → (t.lines.slot slot).record = (s.lines.slot slot).record) ∧
    (∀ slot, (t.lines.slot slot).signature = (s.lines.slot slot).signature ∧
      (t.lines.slot slot).length = (s.lines.slot slot).length) ∧
    (∀ slot, inArea slot → (s.setter.template.boxTop slot).isSome = true → (slot, Cause.page) ∈ t.renderer.list) ∧
    (∀ slot, t.Listed slot ↔ s.Listed slot ∨ (inArea slot ∧ (s.setter.template.boxTop slot).isSome = true)) ∧
    t.setter = { s.setter with
      job := none
      result := ⟨d.status, j.area, d.lines.length, d.nextStart, d.nextPara⟩ } ∧
    t.marks = { s.marks with table := s.marks.table.map (Mark.onLines t.lines) } ∧
    (∀ m : Mark, (m.onLines t.lines).onPage = true ↔ ∃ slot, slot < 210 ∧
      (t.lines.slot slot).record.isSet = true ∧ (t.lines.slot slot).record.docStart < m.stop ∧
      m.start < (t.lines.slot slot).record.docEnd) ∧
    t.events = (s.raise .composeDone).events ∧ t.renderer.job = s.renderer.job ∧
    t.link = s.link ∧ t.faces = s.faces ∧ t.image = s.image ∧ t.port = s.port ∧ t.sched = s.sched ∧
    t.drive = s.drive ∧ t.supply = s.supply ∧ t.power = s.power

/-- PAGE CLEAR (R58, R74): its checks in their order; then every SET slot of the named areas becomes EMPTY and is listed
with cause PAGE, signatures stay, and the on-page flags are worked out afresh; with no SET slot it has no effect. -/
def Obligations.PageClearEmptiesItsAreas : Prop :=
  ∀ (s : State) (ps : List Byte), s.AtLastParam .pageClear ps →
    let p := s.paramsTaken
    let code := field ps 0 1
    let named := fun slot => (code = 3 ∧ slot < 210) ∨ (code = 0 ∧ slot = 0) ∨ (code = 1 ∧ 1 ≤ slot ∧ slot ≤ 208) ∨
      (code = 2 ∧ slot = 209)
    let cleared := fun slot => named slot ∧ (p.lines.slot slot).record.isSet = true
    (p.setter.job ≠ none → exec .pageClear s = .next (p.refuse 0x16 .busy).settleCut) ∧
    (p.setter.job = none → 3 < code → exec .pageClear s = .next (p.refuse 0x16 .badParam).settleCut) ∧
    (p.setter.job = none → code ≤ 3 → (∀ slot, ¬ cleared slot) → exec .pageClear s = .next p.settleCut) ∧
    (p.setter.job = none → code ≤ 3 → (∃ slot, cleared slot) → ∃ (lines : LineTable) (list : List (Nat × Cause)),
      exec .pageClear s = .next ({ p with
        lines := lines
        renderer := { p.renderer with list := list }
        marks := { p.marks with table := p.marks.table.map (Mark.onLines lines) } }).settleCut ∧
      (∀ slot, cleared slot → lines.slot slot = { p.lines.slot slot with record := .blank } ∧
        (slot, Cause.page) ∈ list) ∧
      (∀ slot, ¬ cleared slot → lines.slot slot = p.lines.slot slot ∧
        ∀ cause, (slot, cause) ∈ list ↔ (slot, cause) ∈ p.renderer.list))

/-- A line, however its text runs (R29, R38, R40, R47 to R53): it holds at most 255 placements; it fits the width, or it is
SPLIT with one placement that fits nowhere; it consumes at least one character and no more than there are. Where it ends
is given exactly: the end of the text or a paragraph end that everything before reaches within the width and 255
placements, or the first candidate that does not, and then the break at the latest usable opportunity, or a SPLIT.
`placed k` are the candidates of the first k characters. That a SPLIT line leaves the soft hyphens after its last
placement to the next line is the model's reading of R51 (log entry 11). -/
def Obligations.LineFitsOrIsSplit : Prop :=
  (∀ (fs : FaceStore) (base avail index : Nat) (text : List TextChar),
    let e := fillLine fs base avail text index [] none index
    let placed := fun k => ((text.take k).zipIdx).filterMap fun (p : TextChar × Nat) =>
      if p.1.code = 0xAD then none else some (candidate fs p.1 (base + index + p.2))
    let hyphen := fun (k : Nat) (c : TextChar) => hyphenPlacement fs c (base + index + k)
    let fits := fun k => (∀ c ∈ text.take k, c.code ≠ 0x0A) ∧ (placed k).length ≤ 255 ∧ naturalWidth (placed k) ≤ avail
    let usable := fun k => placed k ≠ [] ∧ ∃ c, text[k]? = some c ∧ (c.code = 0x20 ∨
      (c.code = 0xAD ∧ naturalWidth (placed k) + (hyphen k c).width ≤ avail ∧ (placed k).length ≤ 254))
    let overflows := fun m => fits m ∧ ∃ c, text[m]? = some c ∧ c.code ≠ 0x0A ∧ ¬ fits (m + 1)
    e.kept.length ≤ 255 ∧
    (naturalWidth e.kept ≤ avail ∨ (e.split = true ∧ e.kept.length = 1)) ∧
    (text ≠ [] → index < e.consumed) ∧ e.consumed ≤ index + text.length ∧
    (e.hyphenated = true → ∃ h, e.kept.getLast? = some h ∧ h.kind = .hyphen) ∧
    (fits text.length ∨ (∃ m c, fits m ∧ text[m]? = some c ∧ c.code = 0x0A) ∨ ∃ m, overflows m) ∧
    (fits text.length →
      e = ⟨trimSpaces (placed text.length), index + text.length, false, false, false, false, true⟩) ∧
    (∀ m c, fits m → text[m]? = some c → c.code = 0x0A →
      e = ⟨trimSpaces (placed m), index + m + 1, false, false, false, true, false⟩) ∧
    (∀ m, overflows m →
      (∀ k c, k ≤ m → usable k → (∀ j, k < j → j ≤ m → ¬ usable j) → text[k]? = some c →
        e = if c.code = 0x20 then ⟨trimSpaces (placed k), index + k + 1, false, false, false, false, false⟩
          else ⟨placed k ++ [hyphen k c], index + k + 1, false, true, hyphenVoid fs c.face, false, false⟩) ∧
      ((∀ k, k ≤ m → ¬ usable k) →
        (placed m = [] → e = ⟨placed (m + 1), index + m + 1, true, false, false, false, false⟩) ∧
        (∀ l c, l < m → text[l]? = some c → c.code ≠ 0xAD →
          (∀ j d, l < j → j < m → text[j]? = some d → d.code = 0xAD) →
          e = ⟨placed m, index + l + 1, true, false, false, false, false⟩)))) ∧
  (∀ ps : List Placement, ∃ spaces, ps = trimSpaces ps ++ spaces ∧ (∀ p ∈ spaces, p.kind = .space) ∧
    ∀ p, (trimSpaces ps).getLast? = some p → p.kind ≠ .space) ∧
  (∀ (fs : FaceStore) (c : TextChar) (offset : Nat),
    let f := fs.face c.face
    let p := candidate fs c offset
    let h := hyphenPlacement fs c offset
    (p.face = c.face ∧ p.code = c.code ∧ p.offset = offset ∧ p.pen = 0) ∧
    (c.code = 0x20 → p.kind = .space ∧ p.width = f.spaceAdvance) ∧
    (c.code = 0xA0 → p.kind = .fixed ∧ p.width = f.spaceAdvance) ∧
    (c.code ≠ 0x20 → c.code ≠ 0xA0 →
      (∀ g, fs.fullLookup c.face c.code = some g → p.kind = .glyph ∧ p.width = g.advance) ∧
      (fs.fullLookup c.face c.code = none → p.kind = .void ∧ p.width = f.spaceAdvance)) ∧
    h = ⟨.hyphen, c.face, f.hyphenCode, offset, 0, h.width⟩ ∧
    (∀ g, fs.fullLookup c.face f.hyphenCode = some g → h.width = g.advance ∧ hyphenVoid fs c.face = false) ∧
    (fs.fullLookup c.face f.hyphenCode = none → h.width = f.spaceAdvance ∧ hyphenVoid fs c.face = true)) ∧
  (∀ (fs : FaceStore) (face code : Nat),
    let holds := fun (k : Nat) (g : Glyph) => g ∈ fs.directory ∧ g.face = face ∧ g.code = k
    (∀ g, fs.fullLookup face code = some g →
      holds code g ∨ ((∀ h, ¬ holds code h) ∧ holds (fs.face face).missingCode g)) ∧
    (fs.fullLookup face code = none ↔ ∀ g, ¬ holds code g ∧ ¬ holds (fs.face face).missingCode g))

/-- How a line is placed (R39, R40, R54, R55): the alignment used and LOOSE by R54's table, the starting pen and each pen from
the one before, the extras of a line set JUSTIFY, and the other fields of its record; and a line set JUSTIFY fills the
column: its widths sum to the available width, with no space stretched past J and no other placement at all. -/
def Obligations.JustifiedLineFillsTheColumn : Prop :=
  ∀ (t : Template) (base start indent : Nat) (asked : Align) (endsPara : Bool) (e : LineEnd),
    let r := lineRecord t base start indent asked endsPara e
    let avail := t.measure - indent
    let width := naturalWidth e.kept
    let slack := avail - width
    let spaces := fun k => ((e.kept.take k).filter fun p => p.kind == .space).length
    let n := spaces e.kept.length
    let largest := if slack % n = 0 then slack / n else slack / n + 1
    let closes := e.paraEnd = true ∨ (e.textEnd = true ∧ endsPara = true) ∨ e.split = true
    let used := fun (align : Align) (loose : Bool) => r.align = align ∧ r.flags.loose = loose
    (avail < width → used .left false) ∧
    (width ≤ avail →
      (asked = .left → used .left false) ∧
      (asked = .center → used .center false) ∧
      (asked = .justify → closes → used .left false) ∧
      (asked = .justify → ¬ closes → n = 0 → used .left (decide (t.stretch < slack))) ∧
      (asked = .justify → ¬ closes → 1 ≤ n → largest ≤ t.stretch → used .justify false) ∧
      (asked = .justify → ¬ closes → 1 ≤ n → t.stretch < largest → used .left true)) ∧
    (r.isSet = true ∧ r.docStart = base + start ∧ r.docEnd = base + e.consumed ∧ r.indent = indent ∧
      r.flags = ⟨r.flags.loose, e.split, e.hyphenated, e.paraEnd, r.flags.missing⟩ ∧
      (r.flags.missing = true ↔ e.hyphenMissing = true ∨ ∃ p ∈ e.kept, p.kind = .void)) ∧
    r.placements.length = e.kept.length ∧
    (∀ (k : Nat) (a b : Placement), e.kept[k]? = some a → r.placements[k]? = some b →
      b = { a with
        pen := b.pen
        width := if r.align = .justify ∧ a.kind = .space then
          a.width + slack / n + (if spaces k < slack % n then 1 else 0) else a.width } ∧
      (r.align = .justify → b.width ≤ a.width + t.stretch)) ∧
    (∀ b, r.placements[0]? = some b →
      b.pen = t.left + indent + (if r.align = .center then slack / 2 else 0)) ∧
    (∀ k a b, r.placements[k]? = some a → r.placements[k + 1]? = some b → b.pen = a.pen + a.width) ∧
    (r.align = .justify → (r.placements.map Placement.width).sum = avail)

/-- The lines of a draft (R40, R42, R56): at most as many as the area holds; the first begins where the compose stood, each
next one where the one before ended, none is empty of text; and the compose ends TEXT_DONE at the end of the text, or
PAGE_FULL with a full area before a character that is not a space. Each line skips the spaces at its start, is filled and
broken in the width left by its indent, and is placed, and the next one begins where it ended (R47). -/
def Obligations.DraftLinesMeetWithoutAGap : Prop :=
  ∀ (fs : FaceStore) (t : Template) (text : List TextChar) (base room position : Nat) (asked : Align)
    (endsPara nextPara : Bool), position ≤ text.length →
    let d := buildDraft fs t text base asked endsPara room position nextPara []
    d.lines.length ≤ room ∧
    (∀ a, d.lines[0]? = some a → a.docStart = base + position) ∧
    (∀ k a b, d.lines[k]? = some a → d.lines[k + 1]? = some b → b.docStart = a.docEnd) ∧
    (∀ a ∈ d.lines, a.isSet = true ∧ a.docStart < a.docEnd ∧ a.docEnd ≤ base + text.length) ∧
    (d.lines = [] → d.nextPara = nextPara) ∧
    ((d.status = .textDone ∧ d.nextStart = text.length) ∨
      (d.status = .pageFull ∧ d.lines.length = room ∧
        ∃ c, text[d.nextStart]? = some c ∧ c.code ≠ 0x20)) ∧
    (∀ (lines : List LineRecord),
      let build := fun (room position : Nat) (nextPara : Bool) (lines : List LineRecord) =>
        buildDraft fs t text base asked endsPara room position nextPara lines
      ((∀ j c, position ≤ j → text[j]? = some c → c.code = 0x20) →
        build room position nextPara lines = ⟨lines, .textDone, text.length, nextPara⟩) ∧
      (∀ k c, position ≤ k → text[k]? = some c → c.code ≠ 0x20 →
        (∀ j d, position ≤ j → j < k → text[j]? = some d → d.code = 0x20) →
        let indent := if nextPara then t.indent else 0
        let e := fillLine fs base (t.measure - indent) (text.drop k) k [] none k
        build 0 position nextPara lines = ⟨lines, .pageFull, k, nextPara⟩ ∧
        build (room + 1) position nextPara lines = build room e.consumed (e.paraEnd || (e.textEnd && endsPara))
          (lines ++ [lineRecord t base position indent asked endsPara e])))

/-- The law of the line table is kept by every step (R11, R13, R39, R52, R91): the template in force is one that TEMPLATE SET
takes, every SET line has a line box under it, a range that is not empty and at most 255 placements, and every slot
that is listed or rendered has a line box. -/
def Obligations.SetLinesHaveBoxes : Prop :=
  ∀ (s t : State), s.LinesSound → step s = .next t → t.LinesSound

/-! ### Records read on the link -/

/-- Five reads (R28, R46, R57, R79, R114). COMPOSE RESULT and ANSWER READ in ACTIVE: the values stand as the command byte
arrives, and ANSWER READ sets the read flag, also when its reply is discarded. LINE READ, FACE INFO and IMAGE READ: the
reply of an accepted read, and the refusals, whose every reply position reads 0x00. Nothing else changes. What the free
count and the largest free run are is the statement PoolTakesTheLowestFreeRun. -/
def Obligations.ReadsAnswerOrRefuse : Prop :=
  (∀ s : State, s.AtCommandByte .composeResult → s.begun.power.asleep = false →
    let p := s.begun
    let r := p.setter.result
    exec .composeResult s = .next ({ p with link := { p.link with
      reply := p.replyIfOpen (.data [0xA5, if p.setter.job.isSome then 1 else 0,
        match r.status with
          | .none => 0
          | .textDone => 1
          | .pageFull => 2
          | .cancelled => 3,
        match r.area with
          | .head => 0
          | .body => 1
          | .foot => 2,
        BitVec.ofNat 8 r.linesSet, BitVec.ofNat 8 (r.nextStart / 256), BitVec.ofNat 8 r.nextStart,
        if r.nextPara then 1 else 0]) } }).settleCut) ∧
  (∀ s : State, s.AtCommandByte .answerRead → s.begun.power.asleep = false →
    exec .answerRead s = .next ({ s.begun with
      link := { s.begun.link with reply := s.begun.replyIfOpen (.data (0xA5 :: s.begun.marks.answer.bytes)) }
      marks := { s.begun.marks with answer := { s.begun.marks.answer with read := true } } }).settleCut) ∧
  (∀ (s : State) (ps : List Byte),
    let p := s.paramsTaken
    let n := field ps 0 1
    let reply := fun (q : State) (r : Reply) => ({ q with link := { q.link with reply := q.replyIfOpen r } }).settleCut
    (s.AtLastParam .lineRead ps →
      let slot := if n = 0 then 0 else if n = 1 then 1 + field ps 1 1 else 209
      let bad := 2 < n ∨ (n = 1 ∧ 207 < field ps 1 1) ∨ (n ≠ 1 ∧ field ps 1 1 ≠ 0)
      (bad → exec .lineRead s = .next (reply (p.refuse 0x15 .badParam) (.data []))) ∧
      (¬ bad → exec .lineRead s = .next (reply p (.data (0xA5 :: (p.lines.slot slot).bytes slot))))) ∧
    (s.AtLastParam .faceInfo ps →
      let mine := p.faces.directory.filter fun g => g.face == n
      let state : Byte := match (p.faces.face n).state with
        | .empty => 0
        | .loading => 1
        | .ready => 2
      (15 < n → exec .faceInfo s = .next (reply (p.refuse 0x24 .badParam) (.data []))) ∧
      (n ≤ 15 → exec .faceInfo s = .next (reply p (.data ([0xA5, state] ++ twoBytes mine.length ++
        twoBytes (mine.map Glyph.blockCount).sum ++ twoBytes p.faces.freeBlocks ++
        twoBytes p.faces.largestFreeRun))))) ∧
    (s.AtLastParam .imageRead ps →
      let filling := ∃ v left, p.port.state = .filling v left
      (filling → exec .imageRead s = .next (reply (p.refuse 0x43 .busy) (.data []))) ∧
      (¬ filling → 1 < n → exec .imageRead s = .next (reply (p.refuse 0x43 .badParam) (.data []))) ∧
      (¬ filling → n ≤ 1 →
        exec .imageRead s = .next (reply p (.image false (if n = 0 then .target else .current) 0)))))

/-- The records of 11.7, field by field at their byte offsets, each most significant byte first, for every value that the
fields admit: the line record with its placements (R39, R40, R57), and the answer slot with its mark records (R60, R77,
R79). -/
def Obligations.RecordsAreLaidOut : Prop :=
  (∀ (slot : Nat) (l : LineSlot), slot < 210 →
    let r := l.record
    r.docStart < 2 ^ 32 → r.docEnd < 2 ^ 32 → r.indent ≤ 255 → r.placements.length ≤ 255 →
    (∀ n, l.length = some n → n < 65536) →
    (∀ p ∈ r.placements, p.face ≤ 15 ∧ p.code ≤ 0x10FFFF ∧ p.offset < 2 ^ 32 ∧ p.pen < 65536 ∧ p.width < 65536) →
    let bs := l.bytes slot
    bs.length = 20 + 13 * r.placements.length ∧
    field bs 0 1 = (if slot = 0 then 0 else if slot ≤ 208 then 1 else 2) ∧
    field bs 1 1 = (if slot = 0 then 0 else if slot ≤ 208 then slot - 1 else 0) ∧
    field bs 2 1 = (if r.isSet then 1 else 0) ∧ field bs 3 4 = r.docStart ∧ field bs 7 4 = r.docEnd ∧
    field bs 11 1 = (match r.align with
      | .left => 0
      | .center => 1
      | .justify => 2) ∧
    field bs 12 1 = r.indent ∧
    (∀ i, i < 8 → (field bs 13 1).testBit i =
      ([r.flags.loose, r.flags.split, r.flags.hyphenated, r.flags.paraEnd, r.flags.missing].getD i false)) ∧
    field bs 14 1 = (if l.signature.isSome ∧ l.length.isSome then 1 else 0) ∧
    field bs 15 2 = (l.signature.getD 0).toNat ∧ field bs 17 2 = l.length.getD 0 ∧
    field bs 19 1 = r.placements.length ∧
    ∀ (k : Nat) (p : Placement), r.placements[k]? = some p →
      field bs (20 + 13 * k) 1 = (match p.kind with
        | .glyph => 0
        | .space => 1
        | .fixed => 2
        | .hyphen => 3
        | .void => 4) ∧
      field bs (21 + 13 * k) 1 = p.face ∧ field bs (22 + 13 * k) 3 = p.code ∧ field bs (25 + 13 * k) 4 = p.offset ∧
      field bs (29 + 13 * k) 2 = p.pen ∧ field bs (31 + 13 * k) 2 = p.width) ∧
  (∀ a : Answer, a.total < 65536 → a.records.length ≤ 16 → (∀ m ∈ a.records, m.InRange ∧ m.stop < 2 ^ 32) →
    let bs := a.bytes
    bs.length = 5 + 15 * a.records.length ∧
    field bs 0 1 = (match a.kind with
      | .none => 0
      | .get => 1
      | .at => 2
      | .scan => 3
      | .sweep => 4) ∧
    field bs 1 1 = (match a.status with
      | .none => 0
      | .found => 1
      | .more => 2
      | .done => 3) ∧
    field bs 2 2 = a.total ∧ field bs 4 1 = a.records.length ∧
    ∀ (k : Nat) (m : Mark), a.records[k]? = some m →
      field bs (5 + 15 * k) 2 = m.id ∧ field bs (7 + 15 * k) 4 = m.start ∧ field bs (11 + 15 * k) 4 = m.stop ∧
      field bs (15 + 15 * k) 1 = (match m.style with
        | .fill => 0
        | .underline => 1
        | .dotted => 2
        | .box => 3) ∧
      field bs (16 + 15 * k) 1 = m.shade.val ∧ field bs (17 + 15 * k) 1 = m.layer ∧
      field bs (18 + 15 * k) 1 = m.tag.getD 0 ∧
      (∀ i, i < 8 → (field bs (19 + 15 * k) 1).testBit i = ([m.muted, m.onPage].getD i false)))

/-! ### Face store -/

/-- FACE OPEN (R20): its checks in their order, and the record of the opened face; a compose in flight does not matter. -/
def Obligations.FaceOpenChecksInOrder : Prop :=
  ∀ (s : State) (ps : List Byte), s.AtLastParam .faceOpen ps →
    let p := s.paramsTaken
    let f := field ps 0 1
    let bad := 15 < f ∨ field ps 1 1 = 0 ∨ 0x10FFFF < field ps 2 3 ∨ 0x10FFFF < field ps 5 3
    (bad → exec .faceOpen s = .next (p.refuse 0x20 .badParam).settleCut) ∧
    (¬ bad → (p.faces.face f).state ≠ .empty → exec .faceOpen s = .next (p.refuse 0x20 .wrongState).settleCut) ∧
    (¬ bad → (p.faces.face f).state = .empty →
      exec .faceOpen s = .next ({ p with faces := { p.faces with
        faces := put p.faces.faces f ⟨.loading, field ps 1 1, field ps 2 3, field ps 5 3⟩ } }).settleCut ∧
      (p.FacesSound → p.faces.glyphCount f = 0 ∧ p.faces.blocksInUse f = 0))

/-- FACE SEAL and FACE RETIRE (R25 to R27): the checks in their order, a sealed face with its fields as they stand, and a
retired face EMPTY with every field 0 and all its entries gone, the entries of other faces in their places. -/
def Obligations.FaceSealAndRetire : Prop :=
  ∀ (s : State) (ps : List Byte),
    let p := s.paramsTaken
    let f := field ps 0 1
    (s.AtLastParam .faceSeal ps →
      (15 < f → exec .faceSeal s = .next (p.refuse 0x22 .badParam).settleCut) ∧
      (f ≤ 15 → (p.faces.face f).state ≠ .loading →
        exec .faceSeal s = .next (p.refuse 0x22 .wrongState).settleCut) ∧
      (f ≤ 15 → (p.faces.face f).state = .loading →
        exec .faceSeal s = .next ({ p with faces := { p.faces with
          faces := put p.faces.faces f { p.faces.face f with state := .ready } } }).settleCut)) ∧
    (s.AtLastParam .faceRetire ps →
      let inUse := ∃ slot, slot < 210 ∧ (p.lines.slot slot).record.isSet = true ∧
        ∃ q ∈ (p.lines.slot slot).record.placements, q.face = f
      (15 < f → exec .faceRetire s = .next (p.refuse 0x23 .badParam).settleCut) ∧
      (f ≤ 15 → p.setter.job ≠ none → exec .faceRetire s = .next (p.refuse 0x23 .busy).settleCut) ∧
      (f ≤ 15 → p.setter.job = none → inUse → exec .faceRetire s = .next (p.refuse 0x23 .inUse).settleCut) ∧
      (f ≤ 15 → p.setter.job = none → ¬ inUse → (p.faces.face f).state = .empty →
        exec .faceRetire s = .next p.settleCut) ∧
      (f ≤ 15 → p.setter.job = none → ¬ inUse → (p.faces.face f).state ≠ .empty →
        exec .faceRetire s = .next ({ p with faces := { p.faces with
          faces := put p.faces.faces f ⟨.empty, 0, 0, 0⟩
          directory := p.faces.directory.filter fun g => !(g.face == f) } }).settleCut))

/-- The pool (R19, R28). The run that it allocates for k blocks is the lowest place at which k free blocks follow one
another, and there is none exactly when there is no such place; the free count of FACE INFO is the number of free blocks;
and the largest free run is the greatest length of free blocks that follow one another, so a run of k blocks is found
exactly when it is at least k. -/
def Obligations.PoolTakesTheLowestFreeRun : Prop :=
  ∀ s : State, s.FacesSound →
    let held := fun block => ∃ g ∈ s.faces.directory, ∃ a, g.firstBlock = some a ∧ a ≤ block ∧ block < a + g.blockCount
    let fits := fun k b => b + k ≤ 8192 ∧ ∀ block, b ≤ block → block < b + k → ¬ held block
    (∀ k, 1 ≤ k →
      (∀ b, s.faces.freeRun k = some b → fits k b ∧ ∀ c, c < b → ¬ fits k c) ∧
      (s.faces.freeRun k = none → ∀ c, ¬ fits k c) ∧
      (s.faces.freeRun k ≠ none ↔ k ≤ s.faces.largestFreeRun)) ∧
    (∃ b, fits s.faces.largestFreeRun b) ∧ (∀ k b, fits k b → k ≤ s.faces.largestFreeRun) ∧
    ∃ free : List Nat, free.Nodup ∧ (∀ block, block ∈ free ↔ block < 8192 ∧ ¬ held block) ∧
      free.length = s.faces.freeBlocks

/-- GLYPH PUT (R18, R21 to R23): the header's checks in their order; an accepted header makes or replaces its entry, with
the lowest free run, before any bitmap byte, and receives unless it needs none; and each bitmap byte is written as the
next byte of the run, the last one completing the glyph. -/
def Obligations.GlyphPutReceivesItsBitmap : Prop :=
  (∀ (s : State) (ps : List Byte), s.AtLastParam .glyphPut ps →
    let p := s.paramsTaken
    let f := field ps 0 1
    let code := field ps 1 3
    let w := field ps 7 1
    let h := field ps 8 1
    let bytes := (w * h + 1) / 2
    let k := (bytes + 127) / 128
    let bad := 15 < f ∨ 0x10FFFF < code ∨ 128 < w ∨ 160 < h
    let new := ∀ g ∈ p.faces.directory, ¬ (g.face = f ∧ g.code = code)
    let full := new ∧ 4096 ≤ p.faces.directory.length
    (bad → exec .glyphPut s = .next (p.refuse 0x21 .badParam).settleCut) ∧
    (¬ bad → (p.faces.face f).state ≠ .loading → exec .glyphPut s = .next (p.refuse 0x21 .wrongState).settleCut) ∧
    (¬ bad → (p.faces.face f).state = .loading → full → exec .glyphPut s = .next (p.refuse 0x21 .full).settleCut) ∧
    (¬ bad → (p.faces.face f).state = .loading → ¬ full → 1 ≤ k → p.faces.freeRun k = none →
      exec .glyphPut s = .next (p.refuse 0x21 .noSpace).settleCut) ∧
    (∀ run : Option Nat, ¬ bad → (p.faces.face f).state = .loading → ¬ full →
      ((k = 0 ∧ run = none) ∨ (1 ≤ k ∧ run ≠ none ∧ p.faces.freeRun k = run)) →
      ∃ directory,
        exec .glyphPut s = .next (({ p with faces := { p.faces with
          directory := directory
          receiving := if bytes = 0 then none else some ⟨f, code, 0⟩ } }).setTaking
            (if bytes = 0 then .ignoring else .glyph)).settleCut ∧
        directory.Perm (⟨f, code, field ps 4 1, signedField ps 5, signedField ps 6, w, h, run, k⟩ ::
          p.faces.directory.filter fun g => !(g.face == f && g.code == code)))) ∧
  (∀ (s : State) (b : Byte) (r : Receiving) (g : Glyph) (first : Nat), s.AtParam b → s.link.taking = .glyph →
    s.faces.receiving = some r → s.faces.entry r.face r.code = some g → g.firstBlock = some first → s.Canonical →
    let last := (g.width * g.height + 1) / 2 ≤ r.got + 1
    ∃ pool,
      exec .glyphBitmapByte s = .next (({ s.dropFront with faces := { s.faces with
        pool := pool
        receiving := if last then none else some { r with got := r.got + 1 } } }).setTaking
          (if last then .ignoring else .glyph)).settleCut ∧
      pool.read (128 * first + r.got) = b ∧ ∀ a, a ≠ 128 * first + r.got → pool.read a = s.faces.pool.read a)

/-- The law of the face store is kept by every step (R17, R19, R22 to R24): keys are distinct, the runs of two entries do
not overlap and lie within the pool, and an entry receives exactly while its GLYPH PUT stream is open. -/
def Obligations.GlyphRunsNeverOverlap : Prop :=
  ∀ (s t : State), s.FacesSound → step s = .next t → t.FacesSound

/-- The entries of a READY face, and the coverage of their bitmaps, do not change while the face stays READY (R31). -/
def Obligations.ReadyFacesDoNotChange : Prop :=
  ∀ (c : Instr) (s t : State) (f : Nat), s.FacesSound → s.Canonical → exec c s = .next t →
    (s.faces.face f).state = .ready → (t.faces.face f).state = .ready →
    t.faces.face f = s.faces.face f ∧
    (t.faces.directory.filter fun g => g.face == f) = (s.faces.directory.filter fun g => g.face == f) ∧
    ∀ g ∈ s.faces.directory, g.face = f → ∀ i j, i < g.width → j < g.height →
      t.faces.coverage g i j = s.faces.coverage g i j

/-! ### Mark unit -/

/-- The ten requests arrive (R62, R63, R80): a field out of range is refused BAD_PARAM, a request that finds 4 waiting is
refused BUSY, and any other joins the queue, from which an IDLE unit takes it at once. MARK CLEAR and SCAN NEXT arrive
with their command byte, in ACTIVE. -/
def Obligations.RequestsJoinTheQueue : Prop :=
  let arrival := fun (code : Byte) (r : Option MarkRequest) (p : State) => match r with
    | none => (p.refuse code .badParam).settleCut
    | some r =>
      if 4 ≤ p.marks.queue.length then (p.refuse code .busy).settleCut
      else if p.marks.serving = none then ({ p with marks := { p.marks with serving := some r } }).settleCut
      else ({ p with marks := { p.marks with queue := p.marks.queue ++ [r] } }).settleCut
  ∀ (s : State) (ps : List Byte), (s.marks.serving = none → s.marks.queue = []) →
    let p := s.paramsTaken
    (s.AtLastParam .markAdd ps → exec .markAdd s = .next (arrival 0x30 (markAddOf ps) p)) ∧
    (s.AtLastParam .markRange ps → exec .markRange s = .next (arrival 0x31 (markRangeOf ps) p)) ∧
    (s.AtLastParam .markStyle ps → exec .markStyle s = .next (arrival 0x32 (markStyleOf ps) p)) ∧
    (s.AtLastParam .markRetire ps → exec .markRetire s = .next (arrival 0x33 (markRetireOf ps) p)) ∧
    (s.AtLastParam .markSweep ps → exec .markSweep s = .next (arrival 0x34 (markSweepOf ps) p)) ∧
    (s.AtLastParam .markGet ps → exec .markGet s = .next (arrival 0x38 (markGetOf ps) p)) ∧
    (s.AtLastParam .markAt ps → exec .markAt s = .next (arrival 0x39 (markAtOf ps) p)) ∧
    (s.AtLastParam .markScan ps → exec .markScan s = .next (arrival 0x3A (markScanOf ps) p)) ∧
    (s.AtCommandByte .markClear → s.begun.power.asleep = false →
      exec .markClear s = .next (arrival 0x35 (some .clear) s.begun)) ∧
    (s.AtCommandByte .scanNext → s.begun.power.asleep = false →
      exec .scanNext s = .next (arrival 0x3B (some .next) s.begun))

/-- The parameters of the eight requests that carry some (R62, R80): written out most significant byte first, as the
parameter tables of chapters 4 and 5 lay them out, they are read back as the request they spell, at every value the
fields admit, MARK AT with its point clamped; and a request of which any field is out of its range in the tables of R62
and R80 is none, which its arrival refuses. -/
def Obligations.RequestParametersRoundTrip : Prop :=
  (∀ id start stop style shade layer tag, stop < 2 ^ 32 →
    (MarkRequest.add id start stop style shade layer tag).InRange →
    markAddOf (twoBytes id ++ fourBytes start ++ fourBytes stop ++
      [style.code, byteOf shade.val, byteOf layer, byteOf (tag.getD 0)]) =
      some (.add id start stop style shade layer tag)) ∧
  (∀ id start stop, stop < 2 ^ 32 → (MarkRequest.range id start stop).InRange →
    markRangeOf (twoBytes id ++ fourBytes start ++ fourBytes stop) = some (.range id start stop)) ∧
  (∀ id style shade layer tag muted, (MarkRequest.restyle id style shade layer tag muted).InRange →
    markStyleOf (twoBytes id ++ [style.code, byteOf shade.val, byteOf layer, byteOf (tag.getD 0), boolByte muted]) =
      some (.restyle id style shade layer tag muted)) ∧
  (∀ id, 1 ≤ id → id ≤ 65535 → markRetireOf (twoBytes id) = some (.retire id) ∧
    markGetOf (twoBytes id) = some (.get id)) ∧
  (markRetireOf (twoBytes 0) = none ∧ markGetOf (twoBytes 0) = none) ∧
  (∀ a b, a < 2 ^ 32 → b < 2 ^ 32 →
    markSweepOf (fourBytes a ++ fourBytes b) = (if a < b then some (.sweep a b) else none) ∧
    markScanOf (fourBytes a ++ fourBytes b) = (if a < b then some (.scan a b) else none)) ∧
  (∀ x y, x < 65536 → y < 65536 →
    markAtOf (twoBytes x ++ twoBytes y) = some (.at (min x 1247) (min y 1663))) ∧
  (∀ id a b, id < 65536 → a < 2 ^ 32 → b < 2 ^ 32 → (id = 0 ∨ b ≤ a ∨ 65535 < b - a) →
    markRangeOf (twoBytes id ++ fourBytes a ++ fourBytes b) = none) ∧
  (∀ id a b (style shade layer tag : Byte), id < 65536 → a < 2 ^ 32 → b < 2 ^ 32 →
    (id = 0 ∨ b ≤ a ∨ 65535 < b - a ∨ 3 < style.toNat ∨ 15 < shade.toNat ∨ 3 < layer.toNat) →
    markAddOf (twoBytes id ++ fourBytes a ++ fourBytes b ++ [style, shade, layer, tag]) = none) ∧
  (∀ id (style shade layer tag muted : Byte), id < 65536 →
    (id = 0 ∨ 3 < style.toNat ∨ 15 < shade.toNat ∨ 3 < layer.toNat ∨ 1 < muted.toNat) →
    markStyleOf (twoBytes id ++ [style, shade, layer, tag, muted]) = none)

/-- The law of the mark table is kept by every step (R60 to R63): at most 512 records with distinct ids, in ascending
(start, id) order, each field in its range, and at most 4 requests waiting. -/
def Obligations.MarkTableStaysInOrder : Prop :=
  ∀ (s t : State), s.MarksSound → step s = .next t → t.MarksSound

/-- The six changes at service done. MARK ADD, RANGE, STYLE and RETIRE (R64, R66 to R69, R74): each state check refuses with
its reason and leaves table, render list and answer slot; otherwise the table holds the new record with its on-page flag
worked out, the answer slot, the scan and the flags are as they were, and the unit takes the next request. MARK SWEEP
(R70, R78) retires exactly the records wholly inside its range and fills the answer slot with its report, the scan as it
stands; MARK CLEAR (R71) empties the table and leaves the slot. -/
def Obligations.MarkChangesAtServiceDone : Prop :=
  (∀ s : State, s.MarksSound →
    let has := fun id => ∃ m ∈ s.marks.table, m.id = id
    let onPage := fun start stop => rangeOnPage s.lines start stop
    let refused := fun (code : Byte) (reason : Reason) =>
      exec .serviceDone s = .next (s.refuse code reason).nextService
    let changed := fun (table : List Mark) => ∃ t, exec .serviceDone s = .next t ∧ t.marks.table.Perm table ∧
      t.marks.answer = s.marks.answer ∧ t.marks.scan = s.marks.scan ∧
      t.marks.serving = s.marks.queue.head? ∧ t.marks.queue = s.marks.queue.tail ∧
      t.link = s.link ∧ t.events = s.events ∧ t.faces = s.faces ∧ t.setter = s.setter ∧ t.lines = s.lines ∧
      t.renderer.job = s.renderer.job ∧ t.image = s.image ∧ t.port = s.port ∧ t.sched = s.sched ∧ t.drive = s.drive ∧
      t.supply = s.supply ∧ t.power = s.power
    (∀ id start stop style shade layer tag,
      s.marks.serving = some (.add id start stop style shade layer tag) →
      (has id → refused 0x30 .duplicate) ∧ (¬ has id → s.marks.table.length = 512 → refused 0x30 .full) ∧
      (¬ has id → s.marks.table.length < 512 → changed
        (⟨id, start, stop, style, shade, layer, tag, false, onPage start stop⟩ :: s.marks.table))) ∧
    (∀ id start stop, s.marks.serving = some (.range id start stop) → (¬ has id → refused 0x31 .notFound) ∧
      (has id → changed (s.marks.table.map fun m =>
        if m.id = id then { m with start := start, stop := stop, onPage := onPage start stop } else m))) ∧
    (∀ id style shade layer tag muted, s.marks.serving = some (.restyle id style shade layer tag muted) →
      (¬ has id → refused 0x32 .notFound) ∧
      (has id → changed (s.marks.table.map fun m => if m.id = id then
        { m with style := style, shade := shade, layer := layer, tag := tag, muted := muted
                 onPage := onPage m.start m.stop } else m))) ∧
    (∀ id, s.marks.serving = some (.retire id) → (¬ has id → refused 0x33 .notFound) ∧
      (has id → changed (s.marks.table.filter fun m => !(m.id == id))))) ∧
  (∀ s : State,
    (∀ a b, s.marks.serving = some (.sweep a b) → ∃ t, exec .serviceDone s = .next t ∧
      let gone := s.marks.table.filter fun m => a ≤ m.start && m.stop ≤ b
      t.marks.table = s.marks.table.filter (fun m => !(a ≤ m.start && m.stop ≤ b)) ∧
      t.marks.answer = ⟨.sweep, if gone = [] then .none else .found, gone.length, [], false⟩ ∧
      t.marks.scan = s.marks.scan ∧
      t.events = (if s.marks.answer.read then s.raise .answerReady
        else (s.raise .answerLost).raise .answerReady).events ∧
      t.link = s.link ∧ t.lines = s.lines ∧ t.faces = s.faces ∧ t.setter = s.setter ∧ t.image = s.image ∧
      t.sched = s.sched ∧ (gone = [] → t.renderer = s.renderer)) ∧
    (s.marks.serving = some .clear → ∃ t, exec .serviceDone s = .next t ∧ t.marks.table = [] ∧
      t.marks.answer = s.marks.answer ∧ t.marks.scan = s.marks.scan ∧ t.events = s.events ∧ t.link = s.link ∧
      t.lines = s.lines ∧ t.faces = s.faces ∧ t.setter = s.setter ∧ t.image = s.image ∧ t.sched = s.sched ∧
      (s.marks.table = [] → t.renderer = s.renderer)))

/-- A change that succeeds lists every SET slot whose document range meets its affected span, with cause MARK, and no other
slot; a slot listed before keeps its entry (R72, R73, R91). The change succeeds where the table differs after it, or
the record it names is there. -/
def Obligations.ChangesListTheLinesTheyTouch : Prop :=
  ∀ (s t : State) (r : MarkRequest), s.MarksSound → s.marks.serving = some r → exec .serviceDone s = .next t →
    let has := fun id => ∃ m ∈ s.marks.table, m.id = id
    let touched := fun (inSpan : Nat → Nat → Prop) =>
      (∀ slot, t.Listed slot ↔ s.Listed slot ∨ (slot < 210 ∧ (s.lines.slot slot).record.isSet = true ∧
        ∃ a b, inSpan a b ∧ (s.lines.slot slot).record.docStart < b ∧ a < (s.lines.slot slot).record.docEnd)) ∧
      (∀ slot, (slot, Cause.page) ∈ t.renderer.list ↔ (slot, Cause.page) ∈ s.renderer.list)
    (∀ id start stop style shade layer tag, r = .add id start stop style shade layer tag → ¬ has id →
      s.marks.table.length < 512 → touched fun a b => a = start ∧ b = stop) ∧
    (∀ id start stop, r = .range id start stop → has id → touched fun a b => (a = start ∧ b = stop) ∨
      ∃ m ∈ s.marks.table, m.id = id ∧ a = m.start ∧ b = m.stop) ∧
    (∀ id style shade layer tag muted, r = .restyle id style shade layer tag muted → has id →
      touched fun a b => ∃ m ∈ s.marks.table, m.id = id ∧ a = m.start ∧ b = m.stop) ∧
    (∀ id, r = .retire id → has id → touched fun a b => ∃ m ∈ s.marks.table, m.id = id ∧ a = m.start ∧ b = m.stop) ∧
    (∀ u v, r = .sweep u v → touched fun a b => ∃ m ∈ s.marks.table, u ≤ m.start ∧ m.stop ≤ v ∧
      a = m.start ∧ b = m.stop) ∧
    (r = .clear → touched fun a b => ∃ m ∈ s.marks.table, a = m.start ∧ b = m.stop)

/-- The four queries at service done (R78, R81, R82, R85 to R87, R89): each answer with its records, total and status, the
read flag clear, ANSWER_READY raised, and ANSWER_LOST exactly when the answer before it was unread; GET and AT close the
scan, a chunk of more than 16 leaves it open with the key of its sixteenth record, and SCAN NEXT of a closed scan is
refused WRONG_STATE. No query changes a mark, a line or the render list. -/
def Obligations.QueriesFillTheAnswerSlot : Prop :=
  ∀ s : State,
    let fill := fun (answer : Answer) (scan : Option Scan) => exec .serviceDone s = .next
      (({ s with
          marks := { s.marks with answer := answer, scan := scan }
          events := (if s.marks.answer.read then s.raise .answerReady
            else (s.raise .answerLost).raise .answerReady).events } : State).nextService)
    let chunk := fun (a b : Nat) (found : List Mark) =>
      (found.length ≤ 16 → fill ⟨.scan, .done, found.length, found, false⟩ none) ∧
      (∀ m, 16 < found.length → found[15]? = some m →
        fill ⟨.scan, .more, found.length, found.take 16, false⟩ (some ⟨a, b, m.start, m.id⟩))
    (∀ id, s.marks.serving = some (.get id) →
      (∀ m, findMark id s.marks.table = some m → m.id = id ∧ fill ⟨.get, .found, 1, [m], false⟩ none) ∧
      ((∀ m ∈ s.marks.table, m.id ≠ id) → fill ⟨.get, .none, 0, [], false⟩ none)) ∧
    (∀ x y, s.marks.serving = some (.at x y) →
      (s.hits x y = [] → fill ⟨.at, .none, 0, [], false⟩ none) ∧
      (s.hits x y ≠ [] → fill ⟨.at, .found, (s.hits x y).length, (s.hits x y).take 8, false⟩ none)) ∧
    (∀ a b, s.marks.serving = some (.scan a b) →
      chunk a b (s.marks.table.filter fun m => m.start < b && a < m.stop)) ∧
    (s.marks.serving = some .next → s.marks.scan = none →
      exec .serviceDone s = .next (s.refuse 0x3B .wrongState).nextService) ∧
    (∀ c, s.marks.serving = some .next → s.marks.scan = some c →
      chunk c.s c.e (s.marks.table.filter fun m => (m.start < c.e && c.s < m.stop) &&
        (c.cursorStart < m.start || (m.start == c.cursorStart && c.cursorId < m.id))))

/-- A hit test (R82, R83, R85): the marks found are the unmuted marks whose segment in the SET line at the row, or whose note
box beside it, holds the column, highest layer first and highest id first among equal layers; a row of no SET line's
box finds none. -/
def Obligations.HitTestFindsTheMarksUnderAPoint : Prop :=
  ∀ (s : State) (x y : Nat), s.LinesSound → s.MarksSound →
    let t := s.setter.template
    let atRow := fun slot => ∃ top, t.boxTop slot = some top ∧ top ≤ y ∧ y < top + t.pitch
    let found := fun slot (m : Mark) => m ∈ s.marks.table ∧ m.muted = false ∧
      ((∃ a b, m.span (s.lines.slot slot).record = some (a, b) ∧ a ≤ x ∧ x ≤ b) ∨
        ∃ n ∈ lineNotes s.faces t s.marks.table s.lines slot, n.mark.id = m.id ∧ n.x ≤ x ∧
          x < n.x + n.glyph.advance ∧ x ≤ 1247)
    (∀ slot, atRow slot → (s.lines.slot slot).record.isSet = true → ∀ m, m ∈ s.hits x y ↔ found slot m) ∧
    (∀ slot, atRow slot → (s.lines.slot slot).record.isSet = false → s.hits x y = []) ∧
    ((∀ slot, ¬ atRow slot) → s.hits x y = []) ∧
    (s.hits x y).Pairwise (fun a b => b.layer < a.layer ∨ (b.layer = a.layer ∧ b.id < a.id))

/-! ### Renderer -/

/-- Segments and notes of a line (R83, R84, R95, R96): a mark has a segment in a SET line where it covers a placement there,
from the pen x of the first covered placement to the last column of the last one, if it holds a column; and the notes
beside a slot are those of the unmuted marks with a tag whose covered placement of highest offset among all SET lines
stands in that slot, in the first such slot by slot order, and whose note glyph the note face holds while READY. -/
def Obligations.SegmentsAndNotesOfALine : Prop :=
  (∀ (m : Mark) (r : LineRecord) (x0 x1 : Nat),
    let covers := fun p : Placement => m.start ≤ p.offset ∧ p.offset < m.stop
    m.span r = some (x0, x1) ↔ r.isSet = true ∧ x0 ≤ x1 ∧
      (∃ a first b, r.placements = a ++ first :: b ∧ covers first ∧ (∀ p ∈ a, ¬ covers p) ∧ x0 = first.pen) ∧
      (∃ a last b, r.placements = a ++ last :: b ∧ covers last ∧ (∀ p ∈ b, ¬ covers p) ∧
        x1 + 1 = last.pen + last.width)) ∧
  (∀ (s : State) (slot : Nat), s.MarksSound → s.FacesSound → slot < 210 →
    let noteFace := s.setter.template.noteFace
    let covered := fun (m : Mark) (k o : Nat) => (s.lines.slot k).record.isSet = true ∧
      m.start ≤ o ∧ o < m.stop ∧ ∃ p ∈ (s.lines.slot k).record.placements, p.offset = o
    let beside := fun m : Mark => ∃ o, covered m slot o ∧ ∀ k u, covered m k u → u < o ∨ (u = o ∧ slot ≤ k)
    let draws := fun (m : Mark) (g : Glyph) => m ∈ s.marks.table ∧ m.muted = false ∧ beside m ∧
      (s.faces.face noteFace).state = .ready ∧ g ∈ s.faces.directory ∧ g.face = noteFace ∧
      ∃ tag, m.tag = some tag ∧ g.code = 0xE000 + tag
    ∀ m g, draws m g ↔
      ∃ n ∈ lineNotes s.faces s.setter.template s.marks.table s.lines slot, n.mark = m ∧ n.glyph = g)

/-- Render start (R92 to R98): an IDLE renderer takes the first listed slot and builds its description from the line record,
the marks and the notes as they stand; equal in signature and length to those stored it ends at once, with RENDER_IDLE
if the list is empty, and otherwise the slot is painted with the cause it was listed with. The description's bytes are laid out field by field
(each field here by its low bits, as wide as R94 gives it), and its signature is their CRC-16. -/
def Obligations.RenderStartDescribesOrSkips : Prop :=
  ∀ s : State,
    ((s.renderer.job ≠ none ∨ s.renderer.list = []) → exec .renderStart s = .next s) ∧
    (∀ slot cause rest, s.renderer.job = none → s.renderer.list = (slot, cause) :: rest →
      let d := s.describe slot
      let skipped : State := { s with renderer := ⟨rest, none⟩ }
      let same := (s.lines.slot slot).signature = some (crc16 d.bytes) ∧
        (s.lines.slot slot).length = some d.bytes.length
      (¬ same → exec .renderStart s = .next { s with
        renderer := ⟨rest, some (⟨slot, cause, d, 0⟩ : RenderJob)⟩ }) ∧
      (same → rest ≠ [] → exec .renderStart s = .next skipped) ∧
      (same → rest = [] → exec .renderStart s = .next (skipped.raise .renderIdle))) ∧
    (∀ slot, (s.lines.slot slot).record.isSet = false →
      s.describe slot = ⟨false, [], [], [], .clear⟩ ∧ (s.describe slot).bytes = [] ∧ crc16 [] = 0xFFFF) ∧
    (∀ slot, s.MarksSound → (s.lines.slot slot).record.isSet = true →
      let r := (s.lines.slot slot).record
      let d := s.describe slot
      let notes := lineNotes s.faces s.setter.template s.marks.table s.lines slot
      d.isSet = true ∧ d.flags = r.flags ∧
      d.placements = r.placements.map (fun p => ⟨p.kind, p.face, p.code, p.pen⟩) ∧
      (let segmentsAt := 7 * d.placements.length
      let notesAt := segmentsAt + 6 * d.segments.length
      let flagsAt := notesAt + 3 * d.notes.length
      d.bytes.length = flagsAt + 1 ∧
      (∀ k p, d.placements[k]? = some p →
        [PlaceKind.glyph, .space, .fixed, .hyphen, .void][field d.bytes (7 * k) 1]? = some p.kind ∧
        field d.bytes (7 * k + 1) 1 = p.face % 256 ∧ field d.bytes (7 * k + 2) 3 = p.code % 16777216 ∧
        field d.bytes (7 * k + 5) 2 = p.pen % 65536) ∧
      (∀ k g, d.segments[k]? = some g →
        [MarkStyle.fill, .underline, .dotted, .box][field d.bytes (segmentsAt + 6 * k) 1]? = some g.style ∧
        field d.bytes (segmentsAt + 6 * k + 1) 1 = g.shade.val ∧
        field d.bytes (segmentsAt + 6 * k + 2) 2 = g.x0 % 65536 ∧
        field d.bytes (segmentsAt + 6 * k + 4) 2 = g.x1 % 65536) ∧
      (∀ k n, d.notes[k]? = some n → field d.bytes (notesAt + 3 * k) 1 = n.tag % 256 ∧
        field d.bytes (notesAt + 3 * k + 1) 2 = n.x % 65536) ∧
      field d.bytes flagsAt 1 = r.flags.loose.toNat + 2 * r.flags.split.toNat + 4 * r.flags.hyphenated.toNat +
        8 * r.flags.paraEnd.toNat + 16 * r.flags.missing.toNat) ∧
      (∃ ms : List Mark,
        ms.Pairwise (fun a b => a.layer < b.layer ∨ (a.layer = b.layer ∧ a.id < b.id)) ∧
        (∀ m, m ∈ ms ↔ m ∈ s.marks.table ∧ m.muted = false ∧ (m.span r).isSome = true) ∧
        d.segments = ((ms.filter fun m => m.style == .fill) ++ ms.filter fun m => !(m.style == .fill)).filterMap
          (fun m => (m.span r).map fun c => (⟨m.style, m.shade, c.1, c.2⟩ : Segment))) ∧
      d.notes = (notes.filter fun n => n.x ≤ 1247).map (fun n => ⟨n.mark.tag.getD 0, n.x⟩) ∧
      (notes.map fun n => n.mark.id).Pairwise (· < ·) ∧
      (∀ n, notes[0]? = some n → n.x = s.setter.template.left + s.setter.template.measure + 8) ∧
      ∀ k a b, notes[k]? = some a → notes[k + 1]? = some b → b.x = a.x + a.glyph.advance) ∧
    (∀ (bs : List Byte) (b : Byte), crc16 (bs ++ [b]) = (List.range 8).foldl
      (fun (c : BitVec 16) _ => if 32768 ≤ c.toNat then (c <<< 1) ^^^ 0x1021 else c <<< 1)
      (crc16 bs ^^^ BitVec.ofNat 16 (256 * b.toNat))) ∧
    crc16 [0x31, 0x32, 0x33, 0x34, 0x35, 0x36, 0x37, 0x38, 0x39] = 0x29B1

/-- The level of a pixel of a line box (R18, R29, R30, R99 to R102), step by step: fills alone leave the lower of paper and
each shade over the column; a placement added paints the glyph of its full lookup by R101, or nothing; rules and frames
lower the level to their shades; a note added paints the glyph of its exact lookup in the same way. Columns below
L + M are the text clip, the others the note clip. -/
def Obligations.BoxPixelsFollowThePaintRules : Prop :=
  ∀ (s : State) (d : Description) (top x y : Nat),
    let t := s.setter.template
    let level := fun e : Description => (boxLevel s.faces t e top x y).val
    let inText := x < t.left + t.measure
    let across := fun g : Segment => inText ∧ g.x0 ≤ x ∧ x ≤ g.x1
    let lowest := fun (marked : Segment → Prop) (before after : Nat) => after ≤ before ∧
      (∀ g ∈ d.segments, marked g → after ≤ g.shade.val) ∧
      (after = before ∨ ∃ g ∈ d.segments, marked g ∧ after = g.shade.val)
    let rule := fun g : Segment => across g ∧
      ((g.style = .underline ∧ (y = top + t.baseline + 2 ∨ y = top + t.baseline + 3)) ∨
       (g.style = .dotted ∧ (y = top + t.baseline + 2 ∨ y = top + t.baseline + 3) ∧ x % 2 = 0) ∨
       (g.style = .box ∧ (x = g.x0 ∨ x = g.x1 ∨ y = top ∨ y + 1 = top + t.pitch)))
    let holds := fun (face code : Nat) (g : Glyph) => g ∈ s.faces.directory ∧ g.face = face ∧ g.code = code
    let finds := fun (face code : Nat) (g : Glyph) => holds face code g ∨
      ((∀ h, ¬ holds face code h) ∧ holds face (s.faces.face face).missingCode g)
    let dot := fun (g : Glyph) (pen i j : Nat) => i < g.width ∧ j < g.height ∧
      (x : Int) = pen + g.bearing + i ∧ (y : Int) = top + t.baseline - g.top + j
    let inks := fun (g : Glyph) (pen before after : Nat) =>
      (∀ i j, dot g pen i j → ∃ run, g.firstBlock = some run ∧
        let cell := (s.faces.pool.read (128 * run + (j * g.width + i) / 2)).toNat
        let c := if (j * g.width + i) % 2 = 0 then cell / 16 else cell % 16
        after = before - (before * c + 7) / 15) ∧
      ((∀ i j, ¬ dot g pen i j) → after = before)
    let paints := fun (p : DescPlacement) (g : Glyph) => inText ∧ (p.kind = .glyph ∨ p.kind = .hyphen) ∧
      (s.faces.face p.face).state = .ready ∧ finds p.face p.code g
    let draws := fun (n : DescNote) (g : Glyph) => ¬ inText ∧ (s.faces.face t.noteFace).state = .ready ∧
      holds t.noteFace (0xE000 + n.tag) g
    let fills := { d with segments := d.segments.filter fun g => g.style == .fill, notes := [] }
    s.FacesSound → top ≤ y → y < top + t.pitch → x < 1248 →
      lowest (fun g => across g ∧ g.style = .fill) 15 (level { fills with placements := [] }) ∧
      (∀ p, (∀ g, paints p g → inks g p.pen (level fills)
          (level { fills with placements := d.placements ++ [p] })) ∧
        ((∀ g, ¬ paints p g) → level { fills with placements := d.placements ++ [p] } = level fills)) ∧
      lowest rule (level fills) (level { d with notes := [] }) ∧
      (∀ n, (∀ g, draws n g → inks g n.x (level d) (level { d with notes := d.notes ++ [n] })) ∧
        ((∀ g, ¬ draws n g) → level { d with notes := d.notes ++ [n] } = level d))

/-- One write grant of the arbiter (R4, R99, R107, R112): with both clients waiting they are taken in turn; the renderer's
write gives the next pixel of its box the level of R99 to R102, the port's gives the pixel at the write position the
fill's level; no other pixel and no other block changes; and a grant that is the last write of its box or its fill is
the render done or the fill complete. That the turn passes to the other client at every grant, also where one client
alone waited, is the model's reading of R4 (log entry 8), and so is that a glyph is looked up at each of its pixels, with
the face store as it stands at that grant (R99; log entry 9). -/
def Obligations.ArbiterGrantsOneWrite : Prop :=
  ∀ s : State, s.Canonical → s.RectsOnPanel → s.PortSound →
    let t := s.setter.template
    let filling := ∃ v left, s.port.state = .filling v left
    let sets := fun (target : Plane) (px py : Nat) (v : Level) =>
      ∀ x y, x < 1248 → target.level x y = if x = px ∧ y = py then v else s.image.target.level x y
    (s.renderer.job = none → ¬ filling → exec .arbiterWriteGrant s = .next s) ∧
    (∀ j, s.renderer.job = some j → (¬ filling ∨ s.image.turn = .renderer) →
      let top := (t.boxTop j.slot).getD 0
      let x := j.written % 1248
      let y := top + j.written / 1248
      (j.written + 1 < 1248 * t.pitch → ∃ target,
        exec .arbiterWriteGrant s = .next { s with
          image := { s.image with target := target, turn := .port }
          renderer := { s.renderer with job := some { j with written := j.written + 1 } } } ∧
        sets target x y (boxLevel s.faces t j.description top x y)) ∧
      (1248 * t.pitch ≤ j.written + 1 → exec .arbiterWriteGrant s = exec .renderDone s)) ∧
    (∀ v left, s.port.state = .filling v left → (s.renderer.job = none ∨ s.image.turn = .port) →
      let w := s.port.window.x1 - s.port.window.x0 + 1
      (2 ≤ left → ∃ target,
        exec .arbiterWriteGrant s = .next { s with
          image := { s.image with target := target, turn := .renderer }
          port := { s.port with position := s.port.position + 1, state := .filling v (left - 1) } } ∧
        sets target (s.port.window.x0 + s.port.position % w) (s.port.window.y0 + s.port.position / w) v) ∧
      (left = 1 → exec .arbiterWriteGrant s = exec .fillComplete s))

/-- Render done (R93, R99, R103): whatever of the box was still to be painted has its level of R99 to R102 in the target
plane, but for pixels that a fill under way may have written after it; the signature and length painted are stored with
the slot and with no other; the request for the line box is posted with the auto-mode of the cause; and the renderer is
IDLE, with RENDER_IDLE raised if its list is empty. That the row grants every write that still waits, in the arbiter's
turns, is the model's grain (log entry 8): a grant made before it changes nothing of what it leaves. So is that a glyph
is looked up at each pixel, in the face store of that grant (log entry 9). -/
def Obligations.RenderDonePaintsTheBox : Prop :=
  ∀ (s : State) (j : RenderJob) (top : Nat), s.Canonical → s.RectsOnPanel → s.LinesSound → s.PortSound →
    s.renderer.job = some j → s.setter.template.boxTop j.slot = some top →
    let t := s.setter.template
    let filling := ∃ v left, s.port.state = .filling v left
    let painted := fun (target : Plane) (x y : Nat) => target.level x y =
      if top ≤ y ∧ y < top + t.pitch ∧ j.written ≤ 1248 * (y - top) + x then boxLevel s.faces t j.description top x y
      else s.image.target.level x y
    let stored := fun (lines : LineTable) => ∀ slot, lines.slot slot =
      if slot = j.slot then { s.lines.slot slot with
        signature := some (crc16 j.description.bytes), length := some j.description.bytes.length }
      else s.lines.slot slot
    (∃ u : State, exec .renderDone s = .next u ∧ u.renderer = ⟨s.renderer.list, none⟩ ∧ stored u.lines ∧
      ∀ x y, x < 1248 → (filling → s.port.window.holds x y = false) → painted u.image.target x y) ∧
    ((¬ filling ∨ (s.image.turn = .renderer ∧ 1248 * t.pitch ≤ j.written + 1)) →
      ∃ (target : Plane) (lines : LineTable), (∀ x y, x < 1248 → painted target x y) ∧ stored lines ∧
      let p : State := { s with
        image := { s.image with target := target, turn := .port }
        renderer := { s.renderer with job := some { j with written := 1248 * t.pitch } }
        lines := lines }
      let q := p.post ⟨⟨0, top, 1247, top + t.pitch - 1⟩,
        (match j.cause with
          | .page => s.sched.settings.pageMode
          | .mark => s.sched.settings.markMode), .render, false⟩
      let done : State := { q with renderer := ⟨s.renderer.list, none⟩ }
      exec .renderDone s = .next (if s.renderer.list = [] then done.raise .renderIdle else done)) ∧
    (∀ u : State, ((filling ∧ s.image.turn = .port) ∨ j.written + 1 < 1248 * t.pitch) →
      exec .arbiterWriteGrant s = .next u → exec .renderDone s = exec .renderDone u)

/-! ### Image port -/

/-- IMAGE WINDOW, IMAGE WRITE with its bytes, and IMAGE FILL to its completion (R106 to R113): the checks in their order;
the window clamped and its position 0; a stream byte's two pixels and a fill's pixels at the window's next indices, in
the window alone, and none past its end; and the window's request at the end of a fill. With a render under way a write
of the renderer whose turn it is goes before each pixel of a stream byte, and a fill completes grant by grant. That a
stream byte's two pixels are written in its step, that FILL_COMPLETE grants all writes left, and the turn after them
are the model's grain (log entry 8). -/
def Obligations.ImagePortWritesItsWindow : Prop :=
  (∀ (s : State) (ps : List Byte),
    let p := s.paramsTaken
    let filling := ∃ v left, p.port.state = .filling v left
    let size := (p.port.window.x1 - p.port.window.x0 + 1) * (p.port.window.y1 - p.port.window.y0 + 1)
    (s.AtLastParam .imageWindow ps →
      let x0 := field ps 0 2
      let y0 := field ps 2 2
      let x1 := field ps 4 2
      let y1 := field ps 6 2
      let bad := x1 < x0 ∨ y1 < y0 ∨ 1247 < x0 ∨ 1663 < y0 ∨ 3 < field ps 8 1
      (filling → exec .imageWindow s = .next (p.refuse 0x40 .busy).settleCut) ∧
      (¬ filling → bad → exec .imageWindow s = .next (p.refuse 0x40 .badParam).settleCut) ∧
      (¬ filling → ¬ bad → exec .imageWindow s = .next ({ p with port := { p.port with
        window := ⟨x0, y0, min x1 1247, min y1 1663⟩
        mode := [none, some Mode.fast, some Mode.gray, some Mode.clean].getD (field ps 8 1) none
        position := 0 } }).settleCut)) ∧
    (s.AtLastParam .imageFill ps →
      let bad := 15 < field ps 0 1 ∨ field ps 1 3 = 0 ∨ 65536 < field ps 1 3
      (filling → exec .imageFill s = .next (p.refuse 0x42 .busy).settleCut) ∧
      (¬ filling → bad → exec .imageFill s = .next (p.refuse 0x42 .badParam).settleCut) ∧
      (∀ v : Level, ¬ filling → ¬ bad → field ps 0 1 = v.val → p.port.position < size →
        exec .imageFill s = .next ({ p with port := { p.port with
          state := .filling v (min (field ps 1 3) (size - p.port.position)) } }).settleCut) ∧
      (¬ filling → ¬ bad → size ≤ p.port.position →
        let idle : State := { p with port := { p.port with state := .idle } }
        exec .imageFill s = .next (match p.port.mode with
          | none => idle
          | some m => idle.post ⟨p.port.window, m, .window, false⟩).settleCut))) ∧
  (∀ s : State, s.AtCommandByte .imageWrite → s.begun.power.asleep = false →
    ((∃ v left, s.begun.port.state = .filling v left) →
      exec .imageWrite s = .next (s.begun.refuse 0x41 .busy).settleCut) ∧
    ((∀ v left, s.begun.port.state ≠ .filling v left) →
      exec .imageWrite s = .next (({ s.begun with port := { s.begun.port with state := .writing } }).setTaking
        .image).settleCut)) ∧
  (∀ s : State, s.Canonical → s.RectsOnPanel → s.PortSound →
    let w := s.port.window.x1 - s.port.window.x0 + 1
    let size := w * (s.port.window.y1 - s.port.window.y0 + 1)
    let k := s.port.position
    let level := fun (target : Plane) (i : Nat) => target.level (s.port.window.x0 + i % w) (s.port.window.y0 + i / w)
    let outside := fun (target : Plane) => ∀ x y, x < 1248 → s.port.window.holds x y = false →
      target.level x y = s.image.target.level x y
    (∀ b, s.AtParam b → s.link.taking = .image →
      ∃ u : State, exec .imageWriteByte s = .next u.settleCut ∧ u.port = { s.port with position := min (k + 2) size } ∧
        (s.renderer.job = none → u = { s.dropFront with
          image := { s.image with target := u.image.target, turn := if k < size then .renderer else s.image.turn }
          port := u.port } ∧
          outside u.image.target ∧
          ∀ i, i < size → (level u.image.target i).val =
            if i = k then b.toNat / 16 else if i = k + 1 then b.toNat % 16
            else (level s.image.target i).val)) ∧
    (∀ b, s.AtParam b → s.link.taking = .image →
      let granted := fun (p q : State) =>
        if p.renderer.job ≠ none ∧ p.image.turn = .renderer then exec .arbiterWriteGrant p = .next q else q = p
      let written := fun (p q : State) (v : Nat) => ∃ target : Plane,
        q = { p with
          image := { p.image with target := target, turn := .renderer }
          port := { p.port with position := p.port.position + 1 } } ∧
        ∀ x y, x < 1248 → (target.level x y).val =
          if x = s.port.window.x0 + p.port.position % w ∧ y = s.port.window.y0 + p.port.position / w then v
          else (p.image.target.level x y).val
      let pixel := fun (p q : State) (v : Nat) =>
        if p.port.position < size then ∃ g : State, granted p g ∧ written g q v else q = p
      ∃ p q : State, pixel s.dropFront p (b.toNat / 16) ∧ pixel p q (b.toNat % 16) ∧
        exec .imageWriteByte s = .next q.settleCut) ∧
    (∀ v left, s.port.state = .filling v left →
      (∀ u : State, s.renderer.job ≠ none → (s.image.turn = .renderer ∨ 2 ≤ left) →
        exec .arbiterWriteGrant s = .next u → exec .fillComplete s = exec .fillComplete u) ∧
      (∃ u : State, exec .fillComplete s = .next u ∧ u.port = { s.port with position := k + left, state := .idle }) ∧
      (s.renderer.job = none → ∃ target : Plane, outside target ∧
        (∀ i, i < size → level target i = if k ≤ i ∧ i < k + left then v else level s.image.target i) ∧
        let done : State := { s with
          image := { s.image with target := target, turn := .renderer }
          port := { s.port with position := k + left, state := .idle } }
        exec .fillComplete s = .next (match s.port.mode with
          | none => done
          | some m => done.post ⟨s.port.window, m, .window, false⟩))) ∧
    ((∀ v left, s.port.state ≠ .filling v left) → exec .fillComplete s = .next s))

/-! ### Update scheduler -/

/-- A request that is not a REPAIR (R2, R118, R119, R121): with BLANK on those of RENDER and WINDOW leave everything as it
was; every other one merges into the youngest entry that qualifies, joins the queue, or with 16 entries is squeezed
into the youngest with QUEUE_SQUEEZE; the settle and idle timers stop and the queue is scanned. Two rectangles intersect
where they share a pixel, and share an edge where they share none and touch along a side; a merged rectangle holds the
pixels of the two and no other. -/
def Obligations.RequestsMergeJoinOrSqueeze : Prop :=
  (∀ (s : State) (r : Request),
    let gone := s.sched.blank = true ∧ (r.origin = .render ∨ r.origin = .window)
    let fits := fun e : Request => e.mode = r.mode ∧
      (e.rect.intersects r.rect = true ∨ e.rect.sharesEdge r.rect = true) ∧
      ((e.rect.x0 = r.rect.x0 ∧ e.rect.x1 = r.rect.x1) ∨ (e.rect.y0 = r.rect.y0 ∧ e.rect.y1 = r.rect.y1))
    let origin := fun e : Request => if r.origin = .explicit then Origin.explicit else e.origin
    let taken := fun (queue : List Request) (events : Events) => ({ s with
      sched := { s.sched with queue := queue, settle := none }
      supply := { s.supply with idle := none }
      events := events } : State).scan
    (gone → s.post r = s) ∧
    (∀ a e b, ¬ gone → s.sched.queue = a ++ e :: b → fits e → (∀ f ∈ b, ¬ fits f) →
      s.post r =
        taken (a ++ { e with rect := e.rect.bounding r.rect, origin := origin e } :: b) s.events) ∧
    (¬ gone → (∀ f ∈ s.sched.queue, ¬ fits f) → s.sched.queue.length < 16 →
      s.post r = taken (s.sched.queue ++ [r]) s.events) ∧
    (∀ a e, ¬ gone → (∀ f ∈ s.sched.queue, ¬ fits f) → 16 ≤ s.sched.queue.length → s.sched.queue = a ++ [e] →
      s.post r = taken
        (a ++ [{ e with
          rect := e.rect.bounding r.rect
          mode := if e.mode.rank < r.mode.rank then r.mode else e.mode
          origin := origin e }])
        (s.raise .queueSqueeze).events)) ∧
  (∀ a b : Rect, a.onPanel → b.onPanel →
    (a.intersects b = true ↔ ∃ x y, a.holds x y = true ∧ b.holds x y = true) ∧
    (a.sharesEdge b = true ↔ (∀ x y, ¬ (a.holds x y = true ∧ b.holds x y = true)) ∧
      ∃ x y, a.holds x y = true ∧
        (b.holds (x + 1) y = true ∨ b.holds x (y + 1) = true ∨ (1 ≤ x ∧ b.holds (x - 1) y = true) ∨
          (1 ≤ y ∧ b.holds x (y - 1) = true))) ∧
    (a.intersects b = true ∨ a.sharesEdge b = true →
      (a.x0 = b.x0 ∧ a.x1 = b.x1) ∨ (a.y0 = b.y0 ∧ a.y1 = b.y1) →
      ∀ x y, (a.bounding b).holds x y = true ↔ a.holds x y = true ∨ b.holds x y = true))

/-- REFRESH, the display and blank commands, SCHED SET, DRIVE SET and SUPPLY SET (R136 to R139, R157, R165): the request that
each posts, the settings that each takes with its clamping, the refusals, and no effect in the state already in force. -/
def Obligations.RefreshDisplayAndSettingsCommands : Prop :=
  let clean : Request := ⟨⟨0, 0, 1247, 1663⟩, .clean, .explicit, false⟩
  let gray : Request := ⟨⟨0, 0, 1247, 1663⟩, .gray, .explicit, false⟩
  (∀ (s : State) (ps : List Byte),
    let p := s.paramsTaken
    (s.AtLastParam .refresh ps →
      let x0 := field ps 0 2
      let y0 := field ps 2 2
      let x1 := field ps 4 2
      let y1 := field ps 6 2
      let bad := x1 < x0 ∨ y1 < y0 ∨ field ps 8 1 = 0 ∨ 3 < field ps 8 1
      (bad → exec .refresh s = .next (p.refuse 0x50 .badParam).settleCut) ∧
      (∀ m : Mode, ¬ bad → field ps 8 1 = m.rank + 1 →
        exec .refresh s =
          .next (p.post ⟨⟨min x0 1247, min y0 1663, min x1 1247, min y1 1663⟩, m, .explicit, false⟩).settleCut)) ∧
    (s.AtLastParam .schedSet ps →
      let bad := field ps 0 1 = 0 ∨ 3 < field ps 0 1 ∨ field ps 1 1 = 0 ∨ 3 < field ps 1 1 ∨ 1 < field ps 4 1
      (bad → exec .schedSet s = .next (p.refuse 0x55 .badParam).settleCut) ∧
      (∀ a b : Mode, ¬ bad → field ps 0 1 = a.rank + 1 → field ps 1 1 = b.rank + 1 →
        exec .schedSet s = .next ({ p with sched := { p.sched with
          settings := ⟨a, b, field ps 2 1, field ps 3 1, decide (field ps 4 1 = 1)⟩ } }).settleCut)) ∧
    (s.AtLastParam .driveSet ps →
      exec .driveSet s = .next ({ p with drive := { p.drive with
        period := if field ps 0 1 < 8 then 8 else if 25 < field ps 0 1 then 25 else field ps 0 1 } }).settleCut) ∧
    (s.AtLastParam .supplySet ps →
      exec .supplySet s = .next ({ p with supply := { p.supply with settings :=
        ⟨if field ps 0 1 = 0 then 1 else field ps 0 1, if 15 < field ps 1 1 then 15 else field ps 1 1,
          field ps 2 1⟩ } }).settleCut)) ∧
  (∀ s : State, s.begun.power.asleep = false →
    let p := s.begun
    (s.AtCommandByte .displayNormal →
      (p.sched.inverted = false → exec .displayNormal s = .next p.settleCut) ∧
      (p.sched.inverted = true →
        exec .displayNormal s = .next (({ p with sched := { p.sched with inverted := false } }).post clean).settleCut)) ∧
    (s.AtCommandByte .displayInvert →
      (p.sched.inverted = true → exec .displayInvert s = .next p.settleCut) ∧
      (p.sched.inverted = false →
        exec .displayInvert s = .next (({ p with sched := { p.sched with inverted := true } }).post clean).settleCut)) ∧
    (s.AtCommandByte .blankOn →
      (p.sched.blank = true → exec .blankOn s = .next p.settleCut) ∧
      (p.sched.blank = false → exec .blankOn s = .next (({ p with sched := { p.sched with
        blank := true
        queue := p.sched.queue.filter fun (e : Request) =>
          decide (e.origin ≠ Origin.render ∧ e.origin ≠ Origin.window) } }).post clean).settleCut)) ∧
    (s.AtCommandByte .blankOff →
      (p.sched.blank = false → exec .blankOff s = .next p.settleCut) ∧
      (p.sched.blank = true →
        exec .blankOff s = .next (({ p with sched := { p.sched with blank := false } }).post gray).settleCut)))

/-- How a scan judges the queue as a whole and entry by entry, and how a latch decides (R9, R124 to R130, R160): the
empty queue, the hold for temperature, the supply in each of its states with the asking for power, the full-panel
promotion, the promotion by ghost score, and the weakest READY table of the mode or a stronger one. The entries are
judged from the oldest to the youngest, each by the steps of R125 to R130. That a supply that
is ON at once lets the same scan go on is the model's reading of R160 (log entry 15). -/
def Obligations.ScanAndLatchDecide : Prop :=
  ∀ s : State,
    let usable := ∃ t, s.drive.reading = some t ∧ s.drive.bands.tmin ≤ t ∧ t ≤ s.drive.bands.tmax
    let cool : State := { s with sched := { s.sched with tempHold := false } }
    (s.sched.queue = [] → s.scan = { s with sched := { s.sched with tempHold := false, waveHold := false } }) ∧
    (s.sched.queue ≠ [] → ¬ usable → s.sched.tempHold = true → s.scan = s) ∧
    (s.sched.queue ≠ [] → ¬ usable → s.sched.tempHold = false →
      s.scan = ({ s with sched := { s.sched with tempHold := true } }).raise .tempRange) ∧
    (s.sched.queue ≠ [] → usable →
      (s.supply.state = .on → s.scan = cool.judgeEntries) ∧
      ((s.supply.state = .rising ∨ s.supply.state = .fault) → s.scan = cool) ∧
      (s.supply.state = .off → s.supply.pgood = false → s.scan = { cool with supply := { s.supply with
        state := .rising, powerUp := some s.supply.settings.timeout } }) ∧
      (s.supply.state = .off → s.supply.pgood = true → s.supply.settings.filterTime ≠ 0 →
        s.scan = { cool with supply := { s.supply with
          state := .rising
          powerUp := some s.supply.settings.timeout
          filter := some s.supply.settings.filterTime } }) ∧
      (s.supply.state = .off → s.supply.pgood = true → s.supply.settings.filterTime = 0 →
        s.scan = ({ cool with supply := { s.supply with
          state := .on, powerUp := none, filter := none } }).judgeEntries)) ∧
    (∀ e : Request, e.rect.y0 ≤ e.rect.y1 →
      let touches := fun z => ∃ y, e.rect.y0 ≤ y ∧ y ≤ e.rect.y1 ∧ y / 208 = z
      let worn := s.sched.settings.ghostLimit ≠ 0 ∧
        ∃ z, z < 8 ∧ touches z ∧ s.sched.settings.ghostLimit ≤ look s.sched.ghost z 0
      (e.promoted = true → e.promote s.sched = e) ∧
      (e.promoted = false → s.sched.panelKnown = false →
        e.promote s.sched = { e with rect := ⟨0, 0, 1247, 1663⟩, mode := .clean, promoted := true }) ∧
      (e.promoted = false → s.sched.panelKnown = true → worn → ∃ u, e.promote s.sched =
        { e with rect := u, mode := .clean, promoted := true } ∧
        ∀ x y, u.holds x y = true ↔ x ≤ 1247 ∧ touches (y / 208)) ∧
      (e.promoted = false → s.sched.panelKnown = true → ¬ worn → e.promote s.sched = e)) ∧
    (∀ m : Mode,
      let ready := fun c : Mode => ∃ n data, s.drive.table c s.drive.band = .ready n data
      (∀ c, s.drive.chooseMode m = some c ↔
        m.rank ≤ c.rank ∧ ready c ∧ ∀ d : Mode, m.rank ≤ d.rank → d.rank < c.rank → ¬ ready d) ∧
      (s.drive.chooseMode m = none ↔ ∀ c : Mode, m.rank ≤ c.rank → ¬ ready c)) ∧
    s.judgeEntries = scanEntries [] s.sched.queue false s ∧
    (∀ (older rest : List Request) (e : Request) (want : Bool),
      let meets := fun r : Rect => (∃ i d, s.sched.slot i = some d ∧ r.intersects d.rect = true) ∨
        ∃ o ∈ older, r.intersects o.rect = true
      let p := e.promote s.sched
      let wanting : State := if s.sched.waveHold = true then s
        else ({ s with sched := { s.sched with waveHold := true } }).raise .noWaveform
      scanEntries older [] want s = { s with
        sched := { s.sched with queue := older, waveHold := want && s.sched.waveHold } } ∧
      ((∀ i, i < 8 → s.sched.slot i ≠ none) →
        scanEntries older (e :: rest) want s = { s with sched := { s.sched with queue := older ++ e :: rest } }) ∧
      (∀ i, i < 8 → s.sched.slot i = none → (∀ k, k < i → s.sched.slot k ≠ none) →
        (meets e.rect → scanEntries older (e :: rest) want s = scanEntries (older ++ [e]) rest want s) ∧
        (¬ meets e.rect → s.drive.chooseMode e.mode = none →
          scanEntries older (e :: rest) want s = scanEntries (older ++ [e]) rest true wanting) ∧
        (¬ meets e.rect → s.drive.chooseMode e.mode ≠ none →
          (p.rect ≠ e.rect → meets p.rect →
            scanEntries older (e :: rest) want s = scanEntries (older ++ [p]) rest want s) ∧
          ((p.rect = e.rect ∨ ¬ meets p.rect) → s.drive.chooseMode p.mode = none →
            scanEntries older (e :: rest) want s = scanEntries (older ++ [p]) rest true wanting) ∧
          (∀ m, (p.rect = e.rect ∨ ¬ meets p.rect) → s.drive.chooseMode p.mode = some m →
            ∃ length data, s.drive.table m s.drive.band = .ready length data ∧
            let started : Driving := ⟨p.rect, m, s.drive.band, length, 0, s.drive.frame.isNone⟩
            scanEntries older (e :: rest) want s = scanEntries older rest want { s with
              image := { s.image with
                goal := Plane.copyRect (goalLevel s.sched m) s.image.target p.rect s.image.goal }
              sched := { s.sched with slots := put s.sched.slots i (some started) }
              drive := { s.drive with
                frame := if s.drive.frame = none then some s.drive.period else s.drive.frame } }))))

/-- After a scan's judging of the entries (R117, R122, R125 to R130) nothing that could start is left: either no slot is
FREE, or every entry meets a DRIVING slot or an older entry, or has no READY table. Slots that were DRIVING go on as
they were; an IDLE frame timer starts a frame that enrols the first slot started, and every other one waits (R154); a
slot that has started holds the length of its READY table in the band in force and frame count 0, and the
goal of each of its pixels is the level that the display state and the mode make of the target; every other goal, and
the target and current planes, stay. `fates` gives each entry of the old queue its slot or none: an entry with a slot has
started in it, the lowest FREE at that point, with the rectangle of its promotion and the mode that the tables give; the
others are left, in order, each as it was or as its promotion makes it. The waveform-hold marker is newly set exactly
where NO_WAVEFORM is raised, and with a slot left FREE it stands exactly while an entry is held for want of a waveform. -/
def Obligations.ScanLeavesNothingStartable : Prop :=
  ∀ s : State, s.Canonical → s.SchedulerSound → s.RectsOnPanel →
    let t := s.judgeEntries
    let started := fun i d => i < 8 ∧ s.sched.slot i = none ∧ t.sched.slot i = some d
    ((∀ i, i < 8 → t.sched.slot i ≠ none) ∨
      ∀ a e b, t.sched.queue = a ++ e :: b →
        (∃ i d, t.sched.slot i = some d ∧ e.rect.intersects d.rect = true) ∨
        (∃ o ∈ a, e.rect.intersects o.rect = true) ∨ t.drive.chooseMode e.mode = none) ∧
    t.sched.queue.length ≤ s.sched.queue.length ∧
    (∃ fates : List (Option Nat), fates.length = s.sched.queue.length ∧
      fates.filterMap id <+: (List.range 8).filter (fun i => (s.sched.slot i).isNone) ∧
      (∀ i d, started i d → some i ∈ fates) ∧
      (∀ (k i : Nat) (e : Request), fates[k]? = some (some i) → s.sched.queue[k]? = some e → ∃ d, started i d ∧
        d.rect = (e.promote s.sched).rect ∧ s.drive.chooseMode (e.promote s.sched).mode = some d.mode) ∧
      List.Forall₂ (fun e left : Request => left = e ∨ left = e.promote s.sched)
        ((s.sched.queue.zip fates).filterMap fun p => if p.2 = none then some p.1 else none) t.sched.queue) ∧
    t.events = (if s.sched.waveHold = false ∧ t.sched.waveHold = true then (s.raise .noWaveform).events
      else s.events) ∧
    ((∃ i, i < 8 ∧ t.sched.slot i = none) → (t.sched.waveHold = true ↔
      ∃ a e b, t.sched.queue = a ++ e :: b ∧ t.drive.chooseMode e.mode = none ∧
        (∀ i d, t.sched.slot i = some d → e.rect.intersects d.rect = false) ∧
        ∀ o ∈ a, e.rect.intersects o.rect = false)) ∧
    (∀ i d, s.sched.slot i = some d → t.sched.slot i = some d) ∧
    (s.drive.frame ≠ none → t.drive = s.drive ∧ ∀ i d, started i d → d.enrolled = false) ∧
    (s.drive.frame = none → (∀ i d, started i d → (d.enrolled = true ↔ ∀ k e, started k e → i ≤ k)) ∧
      ((∃ i d, started i d) → t.drive = { s.drive with frame := some s.drive.period }) ∧
      ((∀ i d, ¬ started i d) → t.drive = s.drive)) ∧
    (∀ i d, started i d → d.band = s.drive.band ∧ d.count = 0 ∧
      (∃ data, s.drive.table d.mode d.band = .ready d.length data) ∧
      ∀ x y, d.rect.holds x y = true →
        let plain : Nat := if s.sched.blank = true then 15
          else if s.sched.inverted = true then 15 - (s.image.target.level x y).val
          else (s.image.target.level x y).val
        (t.image.goal.level x y).val =
          if d.mode = .fast then (if 8 ≤ plain then 15 else 0) else plain) ∧
    (∀ x y, x < 1248 → (∀ i d, started i d → d.rect.holds x y = false) →
      t.image.goal.level x y = s.image.goal.level x y) ∧
    t.image.target = s.image.target ∧ t.image.current = s.image.current ∧ t.lines = s.lines ∧ t.marks = s.marks ∧
    t.renderer = s.renderer ∧ t.port = s.port ∧ t.supply = s.supply ∧ t.link = s.link

/-- A frame end (R130, R133, R144, R154, R155): each enrolled slot's pixels receive the drive that its table holds for its
frame count and their two levels as they stood, held pixels and all others HOLD; in ascending order each enrolled slot
that reaches the end of its waveform completes, its pixels at their goals, and every other one's count rises by 1; the
slots that waited are enrolled, a slot that a completion's scan has started waits at count 0, and the next frame starts
if a slot drives. With no frame in progress there is no frame end. -/
def Obligations.FrameEndDrivesEachSlot : Prop :=
  ∀ s : State,
    let driven := fun port : Points Drive =>
      (∀ i d x y, s.sched.slot i = some d → d.enrolled = true → d.rect.holds x y = true →
        let start := s.image.current.level x y
        let goal := s.image.goal.level x y
        let pair := start.val * 16 + goal.val
        let drive := Points.read Drive.hold port (1248 * y + x)
        (d.mode ≠ .clean → start = goal → drive = .hold) ∧
        (∀ data, (d.mode = .clean ∨ start ≠ goal) → s.drive.table d.mode d.band = .ready d.length data →
          let cell := (data.getD (64 * d.count + pair / 4) 0).toNat
          let code := if pair % 4 = 0 then cell / 64 else if pair % 4 = 1 then cell / 16 % 4
            else if pair % 4 = 2 then cell / 4 % 4 else cell % 4
          drive = if code = 1 then .darken else if code = 2 then .lighten else .hold)) ∧
      ∀ x y, x < 1248 →
        (∀ i d, s.sched.slot i = some d → d.enrolled = true → d.rect.holds x y = false) →
        Points.read Drive.hold port (1248 * y + x) = .hold
    (s.drive.frame = none → exec .frameEnd s = .next s) ∧
    (∀ n, s.drive.frame = some n → s.Canonical → s.SchedulerSound → s.RectsOnPanel →
      (∀ i d, s.sched.slot i = some d → d.enrolled = true → d.count + 1 ≠ d.length) →
      ∃ t, exec .frameEnd s = .next t ∧
        t = { s with
          sched := { s.sched with slots := t.sched.slots }
          drive := { s.drive with
            driven := t.drive.driven
            frame := if s.sched.anyDriving then some s.drive.period else none } } ∧
        (∀ i, t.sched.slot i = (s.sched.slot i).map fun d =>
          { d with count := if d.enrolled then d.count + 1 else d.count, enrolled := true }) ∧
        driven t.drive.driven) ∧
    (∀ n, s.drive.frame = some n → s.Canonical → s.SchedulerSound → s.RectsOnPanel →
      let ends := fun i d => i < 8 ∧ s.sched.slot i = some d ∧ d.enrolled = true ∧ d.count + 1 = d.length
      let next := fun (u : State) i => match s.sched.slot i with
        | none => u
        | some d =>
          if d.enrolled = false then u
          else if d.count + 1 = d.length then u.completion i d
          else { u with sched := { u.sched with slots := put u.sched.slots i (some { d with count := d.count + 1 }) } }
      let enrol := fun (u : State) i => match s.sched.slot i with
        | none => u
        | some d =>
          if d.enrolled = true then u
          else { u with sched := { u.sched with slots := put u.sched.slots i (some { d with enrolled := true }) } }
      ∃ t, exec .frameEnd s = .next t ∧ driven t.drive.driven ∧
        (let u := (List.range 8).foldl enrol ((List.range 8).foldl next
          { s with drive := { s.drive with driven := t.drive.driven } })
        t = { u with drive := { u.drive with frame := if u.sched.anyDriving then some s.drive.period else none } }) ∧
        (∀ i d, s.sched.slot i = some d → ¬ ends i d → t.sched.slot i =
          some { d with count := if d.enrolled then d.count + 1 else d.count, enrolled := true }) ∧
        (∀ i e, (s.sched.slot i = none ∨ ∃ d, ends i d) → t.sched.slot i = some e →
          e.enrolled = false ∧ e.count = 0) ∧
        (∀ x y, x < 1248 → (∀ i d, ends i d → d.rect.holds x y = false) →
          t.image.current.level x y = s.image.current.level x y) ∧
        (∀ i d x y, ends i d → d.rect.holds x y = true →
          t.image.current.level x y = s.image.goal.level x y) ∧
        ((∃ i d, ends i d) → t.raised .refreshDone = true) ∧
        t.drive = { s.drive with driven := t.drive.driven, frame := t.drive.frame } ∧
        t.image.target = s.image.target ∧ t.link = s.link ∧ t.faces = s.faces ∧ t.setter = s.setter ∧
        t.lines = s.lines ∧ t.marks = s.marks ∧ t.renderer = s.renderer ∧ t.port = s.port ∧ t.power = s.power)

/-- Completion and quiet (R131 to R135, R163): at a completion the current plane of the rectangle takes the goal, the ghost
scores and coarse flags change by mode and zone, a full-panel CLEAN makes panel-known true, the slot is FREE and
REFRESH_DONE is raised, the queue is scanned, and with nothing left the settle timer starts; a frame end at which the
one slot that drives completes ends in that state with the frame timer IDLE; and the settle timer's expiry raises
PANEL_QUIET, starts the idle timer of a supply that is ON, and posts a TIDY request for each coarse zone in order. -/
def Obligations.CompletionLeadsToQuiet : Prop :=
  (∀ (s : State) (i : Nat) (d : Driving), s.Canonical → d.rect.onPanel → i < 8 →
    ∃ image sched, s.completeSlot i d = ({ s with image := image, sched := sched }).raise .refreshDone ∧
      image = { s.image with current := image.current } ∧
      (∀ x y, x < 1248 → image.current.level x y =
        if d.rect.holds x y = true then s.image.goal.level x y else s.image.current.level x y) ∧
      sched = { s.sched with
        ghost := sched.ghost
        coarse := sched.coarse
        slots := put s.sched.slots i none
        panelKnown := s.sched.panelKnown || decide (d.mode = .clean ∧ d.rect = ⟨0, 0, 1247, 1663⟩) } ∧
      ∀ z, z < 8 →
        let touched := ∃ y, d.rect.y0 ≤ y ∧ y ≤ d.rect.y1 ∧ y / 208 = z
        let whole := ∀ x y, x ≤ 1247 → y / 208 = z → d.rect.holds x y = true
        let score := look s.sched.ghost z 0
        (d.mode = .fast → touched → look sched.ghost z 0 = min 255 (score + 4) ∧ look sched.coarse z false = true) ∧
        (d.mode = .gray → touched → look sched.ghost z 0 = min 255 (score + 1)) ∧
        (d.mode = .clean → whole → look sched.ghost z 0 = 0) ∧
        (d.mode = .clean → ¬ whole → look sched.ghost z 0 = score) ∧
        (d.mode ≠ .fast → whole → look sched.coarse z false = false) ∧
        (d.mode ≠ .fast → ¬ whole → look sched.coarse z false = look s.sched.coarse z false) ∧
        (¬ touched → look sched.ghost z 0 = score ∧ look sched.coarse z false = look s.sched.coarse z false)) ∧
  (∀ (s : State) (i : Nat) (d : Driving),
    let u := (s.completeSlot i d).scan
    let quiet := u.sched.queue = [] ∧ ∀ k, k < 8 → u.sched.slot k = none
    (¬ quiet → s.completion i d = u) ∧
    (quiet → u.sched.settings.settleTime ≠ 0 → s.completion i d =
      { u with sched := { u.sched with settle := some u.sched.settings.settleTime } }) ∧
    (quiet → u.sched.settings.settleTime = 0 → s.completion i d = u.settleExpires)) ∧
  (∀ (s : State) (i n : Nat) (d : Driving), i < 8 → s.sched.slot i = some d → d.enrolled = true →
    d.count + 1 = d.length → (∀ k, k ≠ i → s.sched.slot k = none) → s.sched.queue = [] → s.drive.frame = some n →
    s.sched.settings.settleTime ≠ 0 →
      let driven := drivePixels (pixelDrive (s.drive.table d.mode d.band) d) s.image.current s.image.goal d.rect []
      let u := ({ s with drive := { s.drive with driven := driven } }).completeSlot i d
      exec .frameEnd s = .next { u with
        sched := { u.sched with
          settle := some s.sched.settings.settleTime, tempHold := false, waveHold := false }
        drive := { u.drive with frame := none } }) ∧
  (∀ s : State,
    (s.sched.settle = none → exec .settleTimerExpiry s = .next s) ∧
    (s.sched.settle ≠ none → exec .settleTimerExpiry s = .next s.settleExpires) ∧
    let quiet : State := ({ s with
      sched := { s.sched with settle := none }
      supply := { s.supply with
        idle := if s.supply.state = SupplyState.on ∧ s.supply.settings.idleDelay ≠ 0 then
          some (10 * s.supply.settings.idleDelay) else s.supply.idle } }).raise .panelQuiet
    ((s.sched.settings.tidy = false ∨ ∀ z, z < 8 → look s.sched.coarse z false = false) → s.settleExpires = quiet) ∧
    (s.sched.settings.tidy = true → s.settleExpires =
      (List.range 8).foldl (fun u z => if look u.sched.coarse z false then
        ({ u with sched := { u.sched with coarse := put u.sched.coarse z false } }).post
          ⟨⟨0, 208 * z, 1247, 208 * z + 207⟩, .gray, .tidy, false⟩ else u) quiet))

/-- The laws of the scheduler and the panel's supply are kept by every step, each by itself: at most 16 requests, and DRIVING
slots that share no pixel (R117, R122); ghost scores in 0 to 255 (R131); a panel driven only with its supply ON, and
timers that run only at their times (R124, R134, R154, R163); and rectangles that are rectangles of the panel. -/
def Obligations.SchedulerLawsAreKept : Prop :=
  ∀ (s t : State), step s = .next t →
    (s.SchedulerSound → t.SchedulerSound) ∧ (s.GhostInRange → t.GhostInRange) ∧ (s.DriveSound → t.DriveSound) ∧
    (s.RectsOnPanel → t.RectsOnPanel)

/-- Bounds and forms that every step keeps, each by itself: at most 256 bytes in the FIFO (R176), each slot once in the
render list and in slot order (R91), a write position and a fill that stay within the window (R106, R112), and planes
and pool in canonical form. -/
def Obligations.BoundsAndFormsAreKept : Prop :=
  ∀ (s t : State), step s = .next t →
    (s.FifoBounded → t.FifoBounded) ∧ (s.RenderListSound → t.RenderListSound) ∧ (s.PortSound → t.PortSound) ∧
    (s.Canonical → t.Canonical)

/-- What writes the planes (R4, R6 to R8, R130): the current plane changes only at a frame end or at power-on, and at a frame
end only in the rectangles of slots that complete, so every pixel of a slot that goes on driving keeps its level; the
target plane changes only at the grant of a write of the renderer or the port, or at power-on; and whatever the row, the
goal plane changes only at power-on or in the rectangle of a slot latched in that row, and no goal of a slot that drives
on changes. -/
def Obligations.OnlyTheirWritersChangeThePlanes : Prop :=
  ∀ (c : Instr) (s t : State), exec c s = .next t →
    (t.image.current ≠ s.image.current → c = .frameEnd ∨ c = .powerOn) ∧
    (t.image.target ≠ s.image.target → c = .arbiterWriteGrant ∨ c = .renderDone ∨ c = .imageWriteByte ∨
      c = .fillComplete ∨ c = .powerOn) ∧
    (c = .frameEnd → s.Canonical → s.SchedulerSound → s.RectsOnPanel →
      ∀ x y, x < 1248 → t.image.current.level x y ≠ s.image.current.level x y →
        ∃ i d, s.sched.slot i = some d ∧ d.enrolled = true ∧ d.count + 1 = d.length ∧ d.rect.holds x y = true) ∧
    (c ≠ .powerOn → s.Canonical → s.RectsOnPanel →
      let ends := fun i => ∃ d, s.sched.slot i = some d ∧ c = .frameEnd ∧ d.enrolled = true ∧ d.count + 1 = d.length
      (∀ x y, x < 1248 → t.image.goal.level x y ≠ s.image.goal.level x y →
        ∃ i d, (s.sched.slot i = none ∨ ends i) ∧ t.sched.slot i = some d ∧ d.count = 0 ∧ d.rect.holds x y = true) ∧
      (∀ i d, s.sched.slot i = some d → ¬ ends i → ∀ x y, d.rect.holds x y = true →
        t.image.goal.level x y = s.image.goal.level x y))

/-! ### Panel drive -/

/-- WAVE LOAD with its frame bytes, BANDS SET, TEMP SET and the age timer (R145, R146, R148 to R151, R153): the checks in
their order, a table LOADING and READY at its last byte with a scan, the band by the four cases of a reading, the scan
at a usable reading, and TEMP_STALE. -/
def Obligations.WavesAndTemperature : Prop :=
  let highest := fun (ts : Nat → Int) (t : Int) (k : Nat) =>
    k ≤ 7 ∧ (1 ≤ k → ts k ≤ t) ∧ ∀ j, k < j → j ≤ 7 → t < ts j
  (∀ (s : State) (ps : List Byte), s.AtLastParam .waveLoad ps →
    let p := s.paramsTaken
    let band := field ps 1 1
    let bad := 2 < field ps 0 1 ∨ 7 < band ∨ field ps 2 1 = 0
    (bad → exec .waveLoad s = .next (p.refuse 0x60 .badParam).settleCut) ∧
    (∀ m : Mode, ¬ bad → field ps 0 1 = m.rank →
      let inUse := ∃ i d, p.sched.slot i = some d ∧ d.mode = m ∧ d.band = band
      (inUse → exec .waveLoad s = .next (p.refuse 0x60 .inUse).settleCut) ∧
      (¬ inUse → exec .waveLoad s = .next (({ p with drive := { p.drive with
        tables := put p.drive.tables (8 * m.rank + band) (.loading (field ps 2 1) []) } }).setTaking
          (.wave m band)).settleCut))) ∧
  (∀ (s : State) (b : Byte) (m : Mode) (band length : Nat) (data : List Byte), s.AtParam b →
    s.link.taking = .wave m band → s.drive.table m band = .loading length data →
    let stored := fun (w : Wave) => ({ s.dropFront with drive := { s.drive with
      tables := put s.drive.tables (8 * m.rank + band) w } } : State)
    (data.length + 1 < 64 * length →
      exec .waveFrameByte s = .next (stored (.loading length (data ++ [b]))).settleCut) ∧
    (64 * length ≤ data.length + 1 →
      exec .waveFrameByte s = .next (((stored (.ready length (data ++ [b]))).setTaking .ignoring).scan).settleCut)) ∧
  (∀ (s : State) (ps : List Byte), s.AtLastParam .bandsSet ps →
    let p := s.paramsTaken
    let ts := fun k => signedField ps (k - 1)
    let ranged := fun t : Int => -20 ≤ t ∧ t ≤ 70
    let legal := (∀ k, 1 ≤ k → k ≤ 7 → ranged (ts k)) ∧ (∀ k, 1 ≤ k → k ≤ 6 → ts k < ts (k + 1)) ∧ field ps 7 1 ≤ 7 ∧
      ranged (signedField ps 8) ∧ ranged (signedField ps 9) ∧ signedField ps 8 < signedField ps 9
    let bands : BandSettings := ⟨#v[ts 1, ts 2, ts 3, ts 4, ts 5, ts 6, ts 7], field ps 7 1, signedField ps 8,
      signedField ps 9⟩
    (¬ legal → exec .bandsSet s = .next (p.refuse 0x61 .badParam).settleCut) ∧
    (legal → p.drive.reading = none →
      exec .bandsSet s = .next ({ p with drive := { p.drive with bands := bands } }).settleCut) ∧
    (∀ t, legal → p.drive.reading = some t → ∃ band, highest ts t band ∧
      let q : State := { p with drive := { p.drive with bands := bands, band := band } }
      (signedField ps 8 ≤ t ∧ t ≤ signedField ps 9 → exec .bandsSet s = .next q.scan.settleCut) ∧
      (¬ (signedField ps 8 ≤ t ∧ t ≤ signedField ps 9) → exec .bandsSet s = .next q.settleCut))) ∧
  (∀ (s : State) (ps : List Byte), s.AtLastParam .tempSet ps →
    let p := s.paramsTaken
    let v := signedField ps 0
    let t := if v < -40 then -40 else if 100 < v then 100 else v
    let b := p.drive.band
    let ts := fun k => look p.drive.bands.thresholds (k - 1) 0
    let moves := (b < 7 ∧ ts (b + 1) ≤ t) ∨ (0 < b ∧ t < ts b - (p.drive.bands.hysteresis : Int))
    ∃ band,
      ((p.drive.firstReading = true ∨ moves) → highest ts t band) ∧
      (p.drive.firstReading = false → ¬ moves → band = b) ∧
      let q : State := { p with drive := { p.drive with
        reading := some t, firstReading := false, band := band, age := .running } }
      (p.drive.bands.tmin ≤ t ∧ t ≤ p.drive.bands.tmax → exec .tempSet s = .next q.scan.settleCut) ∧
      (¬ (p.drive.bands.tmin ≤ t ∧ t ≤ p.drive.bands.tmax) → exec .tempSet s = .next q.settleCut)) ∧
  (∀ s : State,
    (s.drive.age = .running → exec .ageTimerExpiry s =
      .next (({ s with drive := { s.drive with age := .notRunning } }).raise .tempStale)) ∧
    (s.drive.age ≠ .running → exec .ageTimerExpiry s = .next s))

/-! ### Supply controller -/

/-- Power-good, the three timers, faults with their repairs, and SUPPLY CLEAR (R120, R140, R154, R160 to R164), in every
supply state; a filter time of 0 acts at once. A fault's repairs go in at the head of the queue one after another, and
each that finds 16 entries first makes one of the two youngest. -/
def Obligations.SupplyFollowsPowerGood : Prop :=
  (∀ s : State,
    let high : State := { s with supply := { s.supply with pgood := true } }
    let low : State := { s with supply := { s.supply with pgood := false } }
    let ft := s.supply.settings.filterTime
    let on := fun q : State => ({ q with supply := { q.supply with
      state := .on, powerUp := none, filter := none } }).scan
    (s.supply.pgood = true → exec .pgoodRise s = .next s) ∧
    (s.supply.pgood = false →
      ((s.supply.state = .off ∨ s.supply.state = .fault) → exec .pgoodRise s = .next high) ∧
      (s.supply.state = .on →
        exec .pgoodRise s = .next { high with supply := { high.supply with filter := none } }) ∧
      (s.supply.state = .rising → ft ≠ 0 →
        exec .pgoodRise s = .next { high with supply := { high.supply with filter := some ft } }) ∧
      (s.supply.state = .rising → ft = 0 → exec .pgoodRise s = .next (on high))) ∧
    (s.supply.pgood = false → exec .pgoodFall s = .next s) ∧
    (s.supply.pgood = true →
      ((s.supply.state = .off ∨ s.supply.state = .fault) → exec .pgoodFall s = .next low) ∧
      (s.supply.state = .rising →
        exec .pgoodFall s = .next { low with supply := { low.supply with filter := none } }) ∧
      (s.supply.state = .on → ft ≠ 0 →
        exec .pgoodFall s = .next { low with supply := { low.supply with filter := some ft } }) ∧
      (s.supply.state = .on → ft = 0 → exec .pgoodFall s = .next low.enterFault)) ∧
    ((s.supply.filter = none ∨ s.supply.state = .off ∨ s.supply.state = .fault) →
      exec .filterTimerExpiry s = .next s) ∧
    (s.supply.filter ≠ none → s.supply.state = .rising → exec .filterTimerExpiry s = .next (on s)) ∧
    (s.supply.filter ≠ none → s.supply.state = .on → exec .filterTimerExpiry s = .next s.enterFault) ∧
    (s.supply.powerUp ≠ none → s.supply.state = .rising → exec .powerUpTimerExpiry s = .next s.enterFault) ∧
    ((s.supply.powerUp = none ∨ s.supply.state ≠ .rising) → exec .powerUpTimerExpiry s = .next s) ∧
    (s.supply.idle ≠ none → s.supply.state = .on → exec .idleTimerExpiry s = .next { s with
      supply := { s.supply with state := .off, filter := none, idle := none } }) ∧
    ((s.supply.idle = none ∨ s.supply.state ≠ .on) → exec .idleTimerExpiry s = .next s)) ∧
  (∀ s : State,
    let failed : State := ({ s with supply := { s.supply with
      state := .fault, powerUp := none, filter := none, idle := none } }).raise .supplyFault
    let repairs := (List.range 8).filterMap fun i =>
      (s.sched.slot i).map fun d => (⟨d.rect, .clean, .repair, false⟩ : Request)
    (repairs = [] → s.enterFault = failed) ∧
    (repairs ≠ [] → s.sched.queue.length + repairs.length ≤ 16 → s.enterFault = ({ failed with
      sched := { s.sched with
        queue := repairs ++ s.sched.queue, slots := Vector.replicate 8 none, settle := none }
      drive := { s.drive with frame := none } }).scan) ∧
    (repairs ≠ [] → s.sched.queue.length ≤ 16 → 16 < s.sched.queue.length + repairs.length →
      let t := s.enterFault
      t.sched.queue.length = 16 ∧ t.sched.queue.take repairs.length = repairs ∧ t.raised .queueSqueeze = true ∧
      (∀ i, t.sched.slot i = none) ∧ t.drive = { s.drive with frame := none } ∧ t.supply = failed.supply ∧
      t.image = s.image ∧ t.sched.ghost = s.sched.ghost ∧ t.sched.coarse = s.sched.coarse ∧
      t.sched.panelKnown = s.sched.panelKnown) ∧
    (repairs ≠ [] →
      let u := repairs.zipIdx.foldl (fun v p => v.insertRepair p.2 p.1) { failed with
        sched := { s.sched with slots := Vector.replicate 8 none }
        drive := { s.drive with frame := none } }
      s.enterFault = ({ u with
        sched := { u.sched with settle := none }
        supply := { u.supply with idle := none } } : State).scan)) ∧
  (∀ (s : State) (r : Request) (before : Nat),
    let put := fun queue : List Request => { s with sched := { s.sched with
      queue := queue.take before ++ r :: queue.drop before } }
    (s.sched.queue.length < 16 → s.insertRepair before r = put s.sched.queue) ∧
    (∀ a older younger, 16 ≤ s.sched.queue.length → s.sched.queue = a ++ [older, younger] →
      s.insertRepair before r = (put (a ++ [⟨
        ⟨min older.rect.x0 younger.rect.x0, min older.rect.y0 younger.rect.y0,
          max older.rect.x1 younger.rect.x1, max older.rect.y1 younger.rect.y1⟩,
        if older.mode.rank < younger.mode.rank then younger.mode else older.mode,
        if younger.origin = .repair ∨ younger.origin = .explicit then younger.origin else older.origin,
        older.promoted || younger.promoted⟩])).raise .queueSqueeze)) ∧
  (∀ s : State, s.AtCommandByte .supplyClear → s.begun.power.asleep = false →
    (s.begun.supply.state = .fault → exec .supplyClear s =
      .next (({ s.begun with supply := { s.begun.supply with state := .off } }).scan).settleCut) ∧
    (s.begun.supply.state ≠ .fault → exec .supplyClear s = .next s.begun.settleCut))

end
end

