-- ==== Sys2Proof/Laws/State.lean ====
section
/-! SUPPORT. One lemma for each field of the state under each small update, so that no later proof unfolds a record. -/

namespace Sys2Proof.Machine

/-! ### onLink -/

@[simp] theorem State.onLink_link (f : Link → Link) (s : State) : (s.onLink f).link = f s.link := rfl
@[simp] theorem State.onLink_events (f : Link → Link) (s : State) : (s.onLink f).events = s.events := rfl
@[simp] theorem State.onLink_faces (f : Link → Link) (s : State) : (s.onLink f).faces = s.faces := rfl
@[simp] theorem State.onLink_setter (f : Link → Link) (s : State) : (s.onLink f).setter = s.setter := rfl
@[simp] theorem State.onLink_lines (f : Link → Link) (s : State) : (s.onLink f).lines = s.lines := rfl
@[simp] theorem State.onLink_marks (f : Link → Link) (s : State) : (s.onLink f).marks = s.marks := rfl
@[simp] theorem State.onLink_renderer (f : Link → Link) (s : State) : (s.onLink f).renderer = s.renderer := rfl
@[simp] theorem State.onLink_image (f : Link → Link) (s : State) : (s.onLink f).image = s.image := rfl
@[simp] theorem State.onLink_port (f : Link → Link) (s : State) : (s.onLink f).port = s.port := rfl
@[simp] theorem State.onLink_sched (f : Link → Link) (s : State) : (s.onLink f).sched = s.sched := rfl
@[simp] theorem State.onLink_drive (f : Link → Link) (s : State) : (s.onLink f).drive = s.drive := rfl
@[simp] theorem State.onLink_supply (f : Link → Link) (s : State) : (s.onLink f).supply = s.supply := rfl
@[simp] theorem State.onLink_power (f : Link → Link) (s : State) : (s.onLink f).power = s.power := rfl
@[simp] theorem State.onLink_pending (f : Link → Link) (s : State) : (s.onLink f).pending = s.pending := rfl

/-! ### setTaking -/

@[simp] theorem State.setTaking_link (t : Taking) (s : State) : (s.setTaking t).link = { s.link with taking := t } := rfl
@[simp] theorem State.setTaking_events (t : Taking) (s : State) : (s.setTaking t).events = s.events := rfl
@[simp] theorem State.setTaking_faces (t : Taking) (s : State) : (s.setTaking t).faces = s.faces := rfl
@[simp] theorem State.setTaking_setter (t : Taking) (s : State) : (s.setTaking t).setter = s.setter := rfl
@[simp] theorem State.setTaking_lines (t : Taking) (s : State) : (s.setTaking t).lines = s.lines := rfl
@[simp] theorem State.setTaking_marks (t : Taking) (s : State) : (s.setTaking t).marks = s.marks := rfl
@[simp] theorem State.setTaking_renderer (t : Taking) (s : State) : (s.setTaking t).renderer = s.renderer := rfl
@[simp] theorem State.setTaking_image (t : Taking) (s : State) : (s.setTaking t).image = s.image := rfl
@[simp] theorem State.setTaking_port (t : Taking) (s : State) : (s.setTaking t).port = s.port := rfl
@[simp] theorem State.setTaking_sched (t : Taking) (s : State) : (s.setTaking t).sched = s.sched := rfl
@[simp] theorem State.setTaking_drive (t : Taking) (s : State) : (s.setTaking t).drive = s.drive := rfl
@[simp] theorem State.setTaking_supply (t : Taking) (s : State) : (s.setTaking t).supply = s.supply := rfl
@[simp] theorem State.setTaking_power (t : Taking) (s : State) : (s.setTaking t).power = s.power := rfl
@[simp] theorem State.setTaking_pending (t : Taking) (s : State) : (s.setTaking t).pending = s.pending := rfl

/-! ### dropFront -/

@[simp] theorem State.dropFront_link (s : State) : (s.dropFront).link = { s.link with fifo := s.link.fifo.tail } := rfl
@[simp] theorem State.dropFront_events (s : State) : (s.dropFront).events = s.events := rfl
@[simp] theorem State.dropFront_faces (s : State) : (s.dropFront).faces = s.faces := rfl
@[simp] theorem State.dropFront_setter (s : State) : (s.dropFront).setter = s.setter := rfl
@[simp] theorem State.dropFront_lines (s : State) : (s.dropFront).lines = s.lines := rfl
@[simp] theorem State.dropFront_marks (s : State) : (s.dropFront).marks = s.marks := rfl
@[simp] theorem State.dropFront_renderer (s : State) : (s.dropFront).renderer = s.renderer := rfl
@[simp] theorem State.dropFront_image (s : State) : (s.dropFront).image = s.image := rfl
@[simp] theorem State.dropFront_port (s : State) : (s.dropFront).port = s.port := rfl
@[simp] theorem State.dropFront_sched (s : State) : (s.dropFront).sched = s.sched := rfl
@[simp] theorem State.dropFront_drive (s : State) : (s.dropFront).drive = s.drive := rfl
@[simp] theorem State.dropFront_supply (s : State) : (s.dropFront).supply = s.supply := rfl
@[simp] theorem State.dropFront_power (s : State) : (s.dropFront).power = s.power := rfl
@[simp] theorem State.dropFront_pending (s : State) : (s.dropFront).pending = s.pending := rfl

/-! ### raise -/

@[simp] theorem State.raise_link (e : Event) (s : State) : (s.raise e).link = s.link := rfl
@[simp] theorem State.raise_events (e : Event) (s : State) : (s.raise e).events = { s.events with flags := s.events.flags ||| e.mask } := rfl
@[simp] theorem State.raise_faces (e : Event) (s : State) : (s.raise e).faces = s.faces := rfl
@[simp] theorem State.raise_setter (e : Event) (s : State) : (s.raise e).setter = s.setter := rfl
@[simp] theorem State.raise_lines (e : Event) (s : State) : (s.raise e).lines = s.lines := rfl
@[simp] theorem State.raise_marks (e : Event) (s : State) : (s.raise e).marks = s.marks := rfl
@[simp] theorem State.raise_renderer (e : Event) (s : State) : (s.raise e).renderer = s.renderer := rfl
@[simp] theorem State.raise_image (e : Event) (s : State) : (s.raise e).image = s.image := rfl
@[simp] theorem State.raise_port (e : Event) (s : State) : (s.raise e).port = s.port := rfl
@[simp] theorem State.raise_sched (e : Event) (s : State) : (s.raise e).sched = s.sched := rfl
@[simp] theorem State.raise_drive (e : Event) (s : State) : (s.raise e).drive = s.drive := rfl
@[simp] theorem State.raise_supply (e : Event) (s : State) : (s.raise e).supply = s.supply := rfl
@[simp] theorem State.raise_power (e : Event) (s : State) : (s.raise e).power = s.power := rfl
@[simp] theorem State.raise_pending (e : Event) (s : State) : (s.raise e).pending = s.pending := rfl

/-! ### refuse -/

@[simp] theorem State.refuse_link (code : Byte) (reason : Reason) (s : State) : (s.refuse code reason).link = { s.link with lastRefusal := ⟨code, reason.code⟩ } := rfl
@[simp] theorem State.refuse_events (code : Byte) (reason : Reason) (s : State) : (s.refuse code reason).events = (s.raise .commandRefused).events := rfl
@[simp] theorem State.refuse_faces (code : Byte) (reason : Reason) (s : State) : (s.refuse code reason).faces = s.faces := rfl
@[simp] theorem State.refuse_setter (code : Byte) (reason : Reason) (s : State) : (s.refuse code reason).setter = s.setter := rfl
@[simp] theorem State.refuse_lines (code : Byte) (reason : Reason) (s : State) : (s.refuse code reason).lines = s.lines := rfl
@[simp] theorem State.refuse_marks (code : Byte) (reason : Reason) (s : State) : (s.refuse code reason).marks = s.marks := rfl
@[simp] theorem State.refuse_renderer (code : Byte) (reason : Reason) (s : State) : (s.refuse code reason).renderer = s.renderer := rfl
@[simp] theorem State.refuse_image (code : Byte) (reason : Reason) (s : State) : (s.refuse code reason).image = s.image := rfl
@[simp] theorem State.refuse_port (code : Byte) (reason : Reason) (s : State) : (s.refuse code reason).port = s.port := rfl
@[simp] theorem State.refuse_sched (code : Byte) (reason : Reason) (s : State) : (s.refuse code reason).sched = s.sched := rfl
@[simp] theorem State.refuse_drive (code : Byte) (reason : Reason) (s : State) : (s.refuse code reason).drive = s.drive := rfl
@[simp] theorem State.refuse_supply (code : Byte) (reason : Reason) (s : State) : (s.refuse code reason).supply = s.supply := rfl
@[simp] theorem State.refuse_power (code : Byte) (reason : Reason) (s : State) : (s.refuse code reason).power = s.power := rfl
@[simp] theorem State.refuse_pending (code : Byte) (reason : Reason) (s : State) : (s.refuse code reason).pending = s.pending := rfl

/-! ### onSetter -/

@[simp] theorem State.onSetter_link (f : Setter → Setter) (s : State) : (s.onSetter f).link = s.link := rfl
@[simp] theorem State.onSetter_events (f : Setter → Setter) (s : State) : (s.onSetter f).events = s.events := rfl
@[simp] theorem State.onSetter_faces (f : Setter → Setter) (s : State) : (s.onSetter f).faces = s.faces := rfl
@[simp] theorem State.onSetter_setter (f : Setter → Setter) (s : State) : (s.onSetter f).setter = f s.setter := rfl
@[simp] theorem State.onSetter_lines (f : Setter → Setter) (s : State) : (s.onSetter f).lines = s.lines := rfl
@[simp] theorem State.onSetter_marks (f : Setter → Setter) (s : State) : (s.onSetter f).marks = s.marks := rfl
@[simp] theorem State.onSetter_renderer (f : Setter → Setter) (s : State) : (s.onSetter f).renderer = s.renderer := rfl
@[simp] theorem State.onSetter_image (f : Setter → Setter) (s : State) : (s.onSetter f).image = s.image := rfl
@[simp] theorem State.onSetter_port (f : Setter → Setter) (s : State) : (s.onSetter f).port = s.port := rfl
@[simp] theorem State.onSetter_sched (f : Setter → Setter) (s : State) : (s.onSetter f).sched = s.sched := rfl
@[simp] theorem State.onSetter_drive (f : Setter → Setter) (s : State) : (s.onSetter f).drive = s.drive := rfl
@[simp] theorem State.onSetter_supply (f : Setter → Setter) (s : State) : (s.onSetter f).supply = s.supply := rfl
@[simp] theorem State.onSetter_power (f : Setter → Setter) (s : State) : (s.onSetter f).power = s.power := rfl
@[simp] theorem State.onSetter_pending (f : Setter → Setter) (s : State) : (s.onSetter f).pending = s.pending := rfl

/-! ### onFaces -/

@[simp] theorem State.onFaces_link (f : FaceStore → FaceStore) (s : State) : (s.onFaces f).link = s.link := rfl
@[simp] theorem State.onFaces_events (f : FaceStore → FaceStore) (s : State) : (s.onFaces f).events = s.events := rfl
@[simp] theorem State.onFaces_faces (f : FaceStore → FaceStore) (s : State) : (s.onFaces f).faces = f s.faces := rfl
@[simp] theorem State.onFaces_setter (f : FaceStore → FaceStore) (s : State) : (s.onFaces f).setter = s.setter := rfl
@[simp] theorem State.onFaces_lines (f : FaceStore → FaceStore) (s : State) : (s.onFaces f).lines = s.lines := rfl
@[simp] theorem State.onFaces_marks (f : FaceStore → FaceStore) (s : State) : (s.onFaces f).marks = s.marks := rfl
@[simp] theorem State.onFaces_renderer (f : FaceStore → FaceStore) (s : State) : (s.onFaces f).renderer = s.renderer := rfl
@[simp] theorem State.onFaces_image (f : FaceStore → FaceStore) (s : State) : (s.onFaces f).image = s.image := rfl
@[simp] theorem State.onFaces_port (f : FaceStore → FaceStore) (s : State) : (s.onFaces f).port = s.port := rfl
@[simp] theorem State.onFaces_sched (f : FaceStore → FaceStore) (s : State) : (s.onFaces f).sched = s.sched := rfl
@[simp] theorem State.onFaces_drive (f : FaceStore → FaceStore) (s : State) : (s.onFaces f).drive = s.drive := rfl
@[simp] theorem State.onFaces_supply (f : FaceStore → FaceStore) (s : State) : (s.onFaces f).supply = s.supply := rfl
@[simp] theorem State.onFaces_power (f : FaceStore → FaceStore) (s : State) : (s.onFaces f).power = s.power := rfl
@[simp] theorem State.onFaces_pending (f : FaceStore → FaceStore) (s : State) : (s.onFaces f).pending = s.pending := rfl

/-! ### onDrive -/

@[simp] theorem State.onDrive_link (f : PanelDrive → PanelDrive) (s : State) : (s.onDrive f).link = s.link := rfl
@[simp] theorem State.onDrive_events (f : PanelDrive → PanelDrive) (s : State) : (s.onDrive f).events = s.events := rfl
@[simp] theorem State.onDrive_faces (f : PanelDrive → PanelDrive) (s : State) : (s.onDrive f).faces = s.faces := rfl
@[simp] theorem State.onDrive_setter (f : PanelDrive → PanelDrive) (s : State) : (s.onDrive f).setter = s.setter := rfl
@[simp] theorem State.onDrive_lines (f : PanelDrive → PanelDrive) (s : State) : (s.onDrive f).lines = s.lines := rfl
@[simp] theorem State.onDrive_marks (f : PanelDrive → PanelDrive) (s : State) : (s.onDrive f).marks = s.marks := rfl
@[simp] theorem State.onDrive_renderer (f : PanelDrive → PanelDrive) (s : State) : (s.onDrive f).renderer = s.renderer := rfl
@[simp] theorem State.onDrive_image (f : PanelDrive → PanelDrive) (s : State) : (s.onDrive f).image = s.image := rfl
@[simp] theorem State.onDrive_port (f : PanelDrive → PanelDrive) (s : State) : (s.onDrive f).port = s.port := rfl
@[simp] theorem State.onDrive_sched (f : PanelDrive → PanelDrive) (s : State) : (s.onDrive f).sched = s.sched := rfl
@[simp] theorem State.onDrive_drive (f : PanelDrive → PanelDrive) (s : State) : (s.onDrive f).drive = f s.drive := rfl
@[simp] theorem State.onDrive_supply (f : PanelDrive → PanelDrive) (s : State) : (s.onDrive f).supply = s.supply := rfl
@[simp] theorem State.onDrive_power (f : PanelDrive → PanelDrive) (s : State) : (s.onDrive f).power = s.power := rfl
@[simp] theorem State.onDrive_pending (f : PanelDrive → PanelDrive) (s : State) : (s.onDrive f).pending = s.pending := rfl

/-! ### setTable -/

@[simp] theorem State.setTable_link (table : List Mark) (s : State) : (s.setTable table).link = s.link := rfl
@[simp] theorem State.setTable_events (table : List Mark) (s : State) : (s.setTable table).events = s.events := rfl
@[simp] theorem State.setTable_faces (table : List Mark) (s : State) : (s.setTable table).faces = s.faces := rfl
@[simp] theorem State.setTable_setter (table : List Mark) (s : State) : (s.setTable table).setter = s.setter := rfl
@[simp] theorem State.setTable_lines (table : List Mark) (s : State) : (s.setTable table).lines = s.lines := rfl
@[simp] theorem State.setTable_marks (table : List Mark) (s : State) : (s.setTable table).marks = { s.marks with table := table } := rfl
@[simp] theorem State.setTable_renderer (table : List Mark) (s : State) : (s.setTable table).renderer = s.renderer := rfl
@[simp] theorem State.setTable_image (table : List Mark) (s : State) : (s.setTable table).image = s.image := rfl
@[simp] theorem State.setTable_port (table : List Mark) (s : State) : (s.setTable table).port = s.port := rfl
@[simp] theorem State.setTable_sched (table : List Mark) (s : State) : (s.setTable table).sched = s.sched := rfl
@[simp] theorem State.setTable_drive (table : List Mark) (s : State) : (s.setTable table).drive = s.drive := rfl
@[simp] theorem State.setTable_supply (table : List Mark) (s : State) : (s.setTable table).supply = s.supply := rfl
@[simp] theorem State.setTable_power (table : List Mark) (s : State) : (s.setTable table).power = s.power := rfl
@[simp] theorem State.setTable_pending (table : List Mark) (s : State) : (s.setTable table).pending = s.pending := rfl

/-! ### closeScan -/

@[simp] theorem State.closeScan_link (s : State) : (s.closeScan).link = s.link := rfl
@[simp] theorem State.closeScan_events (s : State) : (s.closeScan).events = s.events := rfl
@[simp] theorem State.closeScan_faces (s : State) : (s.closeScan).faces = s.faces := rfl
@[simp] theorem State.closeScan_setter (s : State) : (s.closeScan).setter = s.setter := rfl
@[simp] theorem State.closeScan_lines (s : State) : (s.closeScan).lines = s.lines := rfl
@[simp] theorem State.closeScan_marks (s : State) : (s.closeScan).marks = { s.marks with scan := none } := rfl
@[simp] theorem State.closeScan_renderer (s : State) : (s.closeScan).renderer = s.renderer := rfl
@[simp] theorem State.closeScan_image (s : State) : (s.closeScan).image = s.image := rfl
@[simp] theorem State.closeScan_port (s : State) : (s.closeScan).port = s.port := rfl
@[simp] theorem State.closeScan_sched (s : State) : (s.closeScan).sched = s.sched := rfl
@[simp] theorem State.closeScan_drive (s : State) : (s.closeScan).drive = s.drive := rfl
@[simp] theorem State.closeScan_supply (s : State) : (s.closeScan).supply = s.supply := rfl
@[simp] theorem State.closeScan_power (s : State) : (s.closeScan).power = s.power := rfl
@[simp] theorem State.closeScan_pending (s : State) : (s.closeScan).pending = s.pending := rfl

/-! ### cancelQuiet -/

@[simp] theorem State.cancelQuiet_link (s : State) : (s.cancelQuiet).link = s.link := rfl
@[simp] theorem State.cancelQuiet_events (s : State) : (s.cancelQuiet).events = s.events := rfl
@[simp] theorem State.cancelQuiet_faces (s : State) : (s.cancelQuiet).faces = s.faces := rfl
@[simp] theorem State.cancelQuiet_setter (s : State) : (s.cancelQuiet).setter = s.setter := rfl
@[simp] theorem State.cancelQuiet_lines (s : State) : (s.cancelQuiet).lines = s.lines := rfl
@[simp] theorem State.cancelQuiet_marks (s : State) : (s.cancelQuiet).marks = s.marks := rfl
@[simp] theorem State.cancelQuiet_renderer (s : State) : (s.cancelQuiet).renderer = s.renderer := rfl
@[simp] theorem State.cancelQuiet_image (s : State) : (s.cancelQuiet).image = s.image := rfl
@[simp] theorem State.cancelQuiet_port (s : State) : (s.cancelQuiet).port = s.port := rfl
@[simp] theorem State.cancelQuiet_sched (s : State) : (s.cancelQuiet).sched = { s.sched with settle := none } := rfl
@[simp] theorem State.cancelQuiet_drive (s : State) : (s.cancelQuiet).drive = s.drive := rfl
@[simp] theorem State.cancelQuiet_supply (s : State) : (s.cancelQuiet).supply = { s.supply with idle := none } := rfl
@[simp] theorem State.cancelQuiet_power (s : State) : (s.cancelQuiet).power = s.power := rfl
@[simp] theorem State.cancelQuiet_pending (s : State) : (s.cancelQuiet).pending = s.pending := rfl

/-! ### The parts of the link that the small updates of the link reach -/

@[simp] theorem State.setTaking_fifo (t : Taking) (s : State) : (s.setTaking t).link.fifo = s.link.fifo := rfl
@[simp] theorem State.setTaking_taking (t : Taking) (s : State) : (s.setTaking t).link.taking = t := rfl
@[simp] theorem State.dropFront_fifo (s : State) : s.dropFront.link.fifo = s.link.fifo.tail := rfl
@[simp] theorem State.dropFront_taking (s : State) : s.dropFront.link.taking = s.link.taking := rfl
@[simp] theorem State.refuse_fifo (code : Byte) (reason : Reason) (s : State) :
    (s.refuse code reason).link.fifo = s.link.fifo := rfl
@[simp] theorem State.refuse_taking (code : Byte) (reason : Reason) (s : State) :
    (s.refuse code reason).link.taking = s.link.taking := rfl
@[simp] theorem State.refuse_lastRefusal (code : Byte) (reason : Reason) (s : State) :
    (s.refuse code reason).link.lastRefusal = ⟨code, reason.code⟩ := rfl

/-! ### The two accessors of a fixed table -/

@[simp] theorem look_put_self {α : Type} {n : Nat} (v : Vector α n) (i : Nat) (x d : α) (h : i < n) :
    look (put v i x) i d = x := by simp [look, put, h]

@[simp] theorem look_put_other {α : Type} {n : Nat} (v : Vector α n) (i j : Nat) (x d : α) (h : j ≠ i) :
    look (put v i x) j d = look v j d := by
  simp [look, put, Ne.symm h]

theorem look_of_lt {α : Type} {n : Nat} (v : Vector α n) (i : Nat) (d : α) (h : i < n) : look v i d = v[i] := by
  simp [look, h]

@[simp] theorem look_of_ge {α : Type} {n : Nat} (v : Vector α n) (i : Nat) (d : α) (h : n ≤ i) : look v i d = d := by
  simp [look, h]

@[simp] theorem look_mapAll {α β : Type} {n : Nat} (f : α → β) (v : Vector α n) (i : Nat) (d : α) :
    look (mapAll f v) i (f d) = f (look v i d) := by
  simp only [look, mapAll]
  cases h : v[i]? with
  | none => simp_all
  | some a =>
    obtain ⟨hi, rfl⟩ := Vector.getElem?_eq_some_iff.1 h
    simp [hi]

@[simp] theorem look_mapPlaces {α β : Type} {n : Nat} (f : Nat → α → β) (v : Vector α n) (i : Nat) (d : α) (e : β)
    (h : i < n) : look (mapPlaces f v) i e = f i (look v i d) := by
  simp [look, mapPlaces, h]

@[simp] theorem look_replicate {α : Type} (n i : Nat) (a : α) : look (Vector.replicate n a) i a = a := by
  rcases Nat.lt_or_ge i n with h | h <;> simp [look, h]

end Sys2Proof.Machine
end

