-- ==== Sys2Proof/Laws/Link.lean ====
section
/-! SUPPORT. Where a command acts: one lemma for each of the three shared operations of the link, at the byte at which the
command acts and elsewhere. -/

namespace Sys2Proof.Machine

/-! ### The byte at which a command acts -/

/-- At its command byte a command acts on the state that `begun` names, in ACTIVE or if SLEEP takes it. -/
theorem State.atCommand_acts {s : State} {c : Cmd} (act : State → State) (h : s.AtCommandByte c)
    (ha : s.begun.power.asleep = false ∨ c.takenAsleep = true) : s.atCommand c act = (act s.begun).settleCut := by
  obtain ⟨r, h⟩ := h
  rcases ha with ha | ha <;> simp_all [State.atCommand, State.begun]

/-- In SLEEP a command that SLEEP does not take is refused ASLEEP at its command byte. -/
theorem State.atCommand_asleep {s : State} {c : Cmd} (act : State → State) (h : s.AtCommandByte c)
    (ha : s.begun.power.asleep = true) (hc : c.takenAsleep = false) :
    s.atCommand c act = (s.begun.refuse c.code .asleep).settleCut := by
  obtain ⟨r, h⟩ := h
  simp_all [State.atCommand, State.begun]

/-- Away from its command byte a command that acts there changes nothing. -/
theorem State.atCommand_away {s : State} {c : Cmd} (act : State → State) (h : ¬ s.AtCommandByte c) :
    s.atCommand c act = s := by
  unfold State.atCommand
  split
  · next b rest hf =>
    split
    · next hb => exact absurd ⟨rest, hb ▸ hf⟩ h
    · rfl
  · rfl

/-- At its last parameter byte a command acts with all its parameters on the state that `paramsTaken` names. -/
theorem State.atLastParam_acts {s : State} {c : Cmd} {ps : List Byte} (act : List Byte → State → State)
    (h : s.AtLastParam c ps) : s.atLastParam c act = (act ps s.paramsTaken).settleCut := by
  obtain ⟨got, b, r, h1, h2, h3, h4⟩ := h
  have : got.length + 1 = c.params := by simpa [h3] using h4
  simp [State.atLastParam, h1, h2, this, h3, State.paramsTaken]

/-- Away from its last parameter byte a command that acts there changes nothing. -/
theorem State.atLastParam_away {s : State} {c : Cmd} (act : List Byte → State → State)
    (h : ∀ ps, ¬ s.AtLastParam c ps) : s.atLastParam c act = s := by
  unfold State.atLastParam
  split
  · next b rest d got hf ht =>
    split
    · next hd =>
      exact absurd ⟨got, b, rest, hd.1 ▸ ht, hf, rfl, by simp [hd.2]⟩ (h (got ++ [b]))
    · rfl
  · rfl

/-- A byte of a stream is handed to the stream that is open. -/
theorem State.atStreamByte_acts {s : State} {b : Byte} (stream : Taking → Bool) (act : Byte → State → State)
    (h : s.AtParam b) (hs : stream s.link.taking = true) :
    s.atStreamByte stream act = (act b s.dropFront).settleCut := by
  obtain ⟨r, h⟩ := h
  simp [State.atStreamByte, h, hs]

/-- Without a parameter byte at the front, or with another stream open, a stream row changes nothing. -/
theorem State.atStreamByte_away {s : State} (stream : Taking → Bool) (act : Byte → State → State)
    (h : (∀ b, ¬ s.AtParam b) ∨ stream s.link.taking = false) : s.atStreamByte stream act = s := by
  unfold State.atStreamByte
  split
  · next b rest hf =>
    rcases h with h | h
    · exact absurd ⟨rest, hf⟩ (h b)
    · simp [h]
  · rfl

/-! ### The place of a cut -/

/-- With no cut at the front there is nothing to settle. -/
theorem State.settleCut_of_none {s : State} (h : ∀ rest, s.link.fifo ≠ .cut :: rest) : s.settleCut = s := by
  unfold State.settleCut
  split
  · next rest hf => exact absurd hf (h rest)
  · rfl

/-- A cut at the front ends the command. -/
theorem State.settleCut_of_cut {s : State} {rest : List FifoItem} (h : s.link.fifo = .cut :: rest) :
    s.settleCut = s.endCommand .ignoring := by simp [State.settleCut, h]

/-! ### Replies -/

/-- A read's reply is given where it is open and discarded elsewhere; nothing else changes. -/
theorem State.giveReply_eq (r : Reply) (p : State) :
    p.giveReply r = { p with link := { p.link with reply := p.replyIfOpen r } } := by
  have h : (p.link.fifo.isEmpty = true ∧ p.link.reply.unanswered = true) ↔
      (p.link.fifo = [] ∧ (p.link.reply = .waiting ∨ p.link.reply = .waited)) := by
    simp [Reply.unanswered]
  unfold State.giveReply State.replyIfOpen
  by_cases hp : p.link.fifo = [] ∧ (p.link.reply = .waiting ∨ p.link.reply = .waited)
  · rw [if_pos (h.2 hp), if_pos hp]
    rfl
  · rw [if_neg (mt h.1 hp), if_neg hp]

/-! ### A read with nothing ahead of it -/

/-- Taking the front item is the step of one row of the link, or nothing. -/
theorem State.takeFront_eq (s : State) : s.takeFront = s ∨ ∃ row, exec row s = .next s.takeFront := by
  unfold State.takeFront
  split
  · exact .inl rfl
  · split
    · next c _ =>
      split
      · cases c <;> first
          | exact .inr ⟨.statusRead, rfl⟩
          | exact .inr ⟨.idRead, rfl⟩
          | exact .inr ⟨.composeResult, rfl⟩
          | exact .inr ⟨.answerRead, rfl⟩
          | exact .inr ⟨.lineRead, rfl⟩
          | exact .inr ⟨.faceInfo, rfl⟩
          | exact .inr ⟨.imageRead, rfl⟩
          | exact .inl rfl
      · exact .inr ⟨.fifoByteArrival, rfl⟩
    · exact .inl rfl
  · split
    · next c _ _ =>
      split
      · cases c <;> first
          | exact .inr ⟨.statusRead, rfl⟩
          | exact .inr ⟨.idRead, rfl⟩
          | exact .inr ⟨.composeResult, rfl⟩
          | exact .inr ⟨.answerRead, rfl⟩
          | exact .inr ⟨.lineRead, rfl⟩
          | exact .inr ⟨.faceInfo, rfl⟩
          | exact .inr ⟨.imageRead, rfl⟩
          | exact .inl rfl
      · exact .inr ⟨.fifoByteArrival, rfl⟩
    · exact .inr ⟨.fifoByteArrival, rfl⟩
  · exact .inr ⟨.csRising .arrival, rfl⟩
  · exact .inr ⟨.droppedCommandPlace, rfl⟩
  · next hf => exact .inr ⟨.fifoByteArrival, by simp [exec, execFifoByteArrival, State.byteArrives, hf]⟩

/-- What one item of the FIFO keeps, the taking of several keeps. -/
theorem takeItems_keeps {P : State → Prop} (h : ∀ s, P s → P s.takeFront) (n : Nat) (s : State) (hs : P s) :
    P (takeItems n s) := by
  induction n generalizing s with
  | zero => exact hs
  | succ n ih => exact ih _ (h s hs)

/-- What every row of the link keeps, the acting of a read with nothing ahead of it keeps. -/
theorem State.readAhead_keeps {P : State → Prop} (h : ∀ row s t, P s → exec row s = .next t → P t) (s : State)
    (hs : P s) : P s.readAhead := by
  unfold State.readAhead
  split
  · refine takeItems_keeps (fun u hu => ?_) _ _ hs
    rcases u.takeFront_eq with e | ⟨row, e⟩
    · rwa [e]
    · exact h row u _ hu e
  · exact hs

/-- Once the FIFO is empty, or the reply is no longer awaited, nothing is ahead to be taken. -/
theorem State.readAhead_of {s : State} (h : s.link.fifo = [] ∨ s.link.reply ≠ .waiting) : s.readAhead = s := by
  unfold State.readAhead
  split
  · next hc =>
    rcases h with h | h
    · simp [h, takeItems]
    · exact absurd hc.1 h
  · rfl

end Sys2Proof.Machine
end

