-- ==== Sys2Proof/Laws/Memory.lean ====
section
/-! SUPPORT. The glyph pool's bytes: read after write, and the canonical form that a write keeps. -/

namespace Sys2Proof.Machine

/-- A byte that has been written reads as it was written. -/
@[simp] theorem Memory.read_write_self (m : Memory) (a : Nat) (b : Byte) (lo : Nat) (h : m.wfFrom lo = true) :
    (m.write a b).read a = b := by
  induction m generalizing lo with
  | nil => by_cases hb : b = Memory.unlisted <;> simp [Memory.write, Memory.read, hb]
  | cons e rest ih =>
    obtain ⟨k, v⟩ := e
    have high : ∀ (r : Memory) (n : Nat), r.wfFrom n = true → a < n → r.read a = Memory.unlisted := by
      intro r
      induction r with
      | nil => intros; rfl
      | cons e r ih =>
        obtain ⟨k, v⟩ := e
        intro n h hn
        simp only [Memory.wfFrom, Bool.and_eq_true, decide_eq_true_eq] at h
        simp only [Memory.read]
        rw [if_neg (by omega)]
        exact ih (k + 1) h.2 (by omega)
    simp only [Memory.wfFrom, Bool.and_eq_true, decide_eq_true_eq] at h
    unfold Memory.write
    split
    · split
      · next hlt hb => subst hb; exact high ((k, v) :: rest) k (by simp [Memory.wfFrom, h.1.2, h.2]) hlt
      · simp [Memory.read]
    · split
      · next heq =>
        subst heq
        split
        · next hb => subst hb; exact high rest (a + 1) h.2 (by omega)
        · simp [Memory.read]
      · next hne =>
        simp only [Memory.read]
        rw [if_neg hne]
        exact ih (k + 1) h.2

/-- A write leaves every other address as it was. -/
theorem Memory.read_write_other (m : Memory) (a c : Nat) (b : Byte) (lo : Nat) (h : m.wfFrom lo = true) (hc : c ≠ a) :
    (m.write a b).read c = m.read c := by
  induction m generalizing lo with
  | nil => by_cases hb : b = Memory.unlisted <;> simp [Memory.write, Memory.read, hb, hc]
  | cons e rest ih =>
    obtain ⟨k, v⟩ := e
    simp only [Memory.wfFrom, Bool.and_eq_true, decide_eq_true_eq] at h
    unfold Memory.write
    split
    · split <;> simp [Memory.read, hc]
    · split
      · next heq => subst heq; split <;> simp [Memory.read, hc]
      · simp only [Memory.read]
        rw [ih (k + 1) h.2]

/-- A write keeps the canonical form. -/
theorem Memory.write_wfFrom (m : Memory) (a : Nat) (b : Byte) (lo : Nat) (h : m.wfFrom lo = true) (ha : lo ≤ a) :
    (m.write a b).wfFrom lo = true := by
  induction m generalizing lo with
  | nil => by_cases hb : b = Memory.unlisted <;> simp [Memory.write, Memory.wfFrom, hb, ha]
  | cons e rest ih =>
    obtain ⟨k, v⟩ := e
    simp only [Memory.wfFrom, Bool.and_eq_true, decide_eq_true_eq] at h
    unfold Memory.write
    split
    · split
      · simp [Memory.wfFrom, h]
      · next hlt hb => simp only [Memory.wfFrom, Bool.and_eq_true, decide_eq_true_eq]; exact ⟨⟨ha, hb⟩, ⟨hlt, h.1.2⟩, h.2⟩
    · split
      · next heq =>
        subst heq
        split
        · have up : ∀ (r : Memory) (n : Nat), r.wfFrom (n + 1) = true → r.wfFrom n = true := by
            intro r n
            cases r with
            | nil => intro; rfl
            | cons e r =>
              simp only [Memory.wfFrom, Bool.and_eq_true, decide_eq_true_eq]
              exact fun h => ⟨⟨by omega, h.1.2⟩, h.2⟩
          have down : ∀ d, Memory.wfFrom (lo + d) rest = true → Memory.wfFrom lo rest = true := by
            intro d
            induction d with
            | zero => exact id
            | succ d ih => exact fun h => ih (up rest _ h)
          exact down (a + 1 - lo) (by rw [show lo + (a + 1 - lo) = a + 1 by omega]; exact h.2)
        · next hb => simp only [Memory.wfFrom, Bool.and_eq_true, decide_eq_true_eq]; exact ⟨⟨ha, hb⟩, h.2⟩
      · simp only [Memory.wfFrom, Bool.and_eq_true, decide_eq_true_eq]
        exact ⟨h.1, ih (k + 1) h.2 (by omega)⟩

/-- Every memory operation keeps the canonical form: a write does. -/
theorem Memory.write_wf (m : Memory) (a : Nat) (b : Byte) (h : m.wf = true) : (m.write a b).wf = true :=
  Memory.write_wfFrom m a b 0 h (Nat.zero_le a)

/-- The pool of the reset state is in canonical form. -/
theorem reset_pool_wf : State.reset.faces.pool.wf = true := rfl

end Sys2Proof.Machine
end

