-- ==== Sys2Proof/Laws/Planes.lean ====
section
/-! SUPPORT. Planes and the drive port as functions of the pixel: what a splice, a pixel write and a copied rectangle read as,
and the canonical form that they keep. -/

namespace Sys2Proof.Machine

/-! ### Points in rising order -/

/-- The points rise strictly. -/
abbrev Points.Rising {α : Type} (p : Points α) : Prop := p.Pairwise fun a b => a.1 < b.1

theorem Points.read_of_lt {α : Type} (d : α) (p : Points α) (i : Nat) (h : ∀ q ∈ p, i < q.1) : Points.read d p i = d := by
  cases p with
  | nil => rfl
  | cons e rest => exact if_pos (h e (List.mem_cons_self ..))

theorem Points.wfFrom_rising {α : Type} [DecidableEq α] (p : Points α) (lo : Nat) (d : α)
    (h : Points.wfFrom lo d p = true) : p.Rising ∧ ∀ q ∈ p, lo ≤ q.1 := by
  induction p generalizing lo d with
  | nil => simp [Points.Rising]
  | cons e rest ih =>
    obtain ⟨k, v⟩ := e
    simp only [Points.wfFrom, Bool.and_eq_true, decide_eq_true_eq] at h
    obtain ⟨hr, hk⟩ := ih (k + 1) v h.2
    refine ⟨List.pairwise_cons.2 ⟨fun q hq => hk q hq, hr⟩, ?_⟩
    intro q hq
    rcases List.mem_cons.1 hq with rfl | hq
    · exact h.1.1
    · exact Nat.le_trans h.1.1 (Nat.le_of_lt (hk q hq))

theorem Points.wf_rising {α : Type} [DecidableEq α] {p : Points α} {d : α} (h : Points.wf d p = true) : p.Rising :=
  (Points.wfFrom_rising p 0 d h).1

theorem Points.compress_wfFrom {α : Type} [DecidableEq α] (p : Points α) (lo : Nat) (d : α) (hr : p.Rising)
    (hlo : ∀ q ∈ p, lo ≤ q.1) : Points.wfFrom lo d (Points.compress d p) = true := by
  induction p generalizing lo d with
  | nil => rfl
  | cons e rest ih =>
    obtain ⟨k, v⟩ := e
    obtain ⟨h1, h2⟩ := List.pairwise_cons.1 hr
    have hk : lo ≤ k := hlo (k, v) (List.mem_cons_self ..)
    unfold Points.compress
    split
    · exact ih lo d h2 fun q hq => Nat.le_trans hk (Nat.le_of_lt (h1 q hq))
    · next hv =>
      simp only [Points.wfFrom, Bool.and_eq_true, decide_eq_true_eq]
      exact ⟨⟨hk, hv⟩, ih (k + 1) v h2 fun q hq => h1 q hq⟩

theorem Points.read_compress {α : Type} [DecidableEq α] (p : Points α) (d : α) (i : Nat) (hr : p.Rising) :
    Points.read d (Points.compress d p) i = Points.read d p i := by
  induction p generalizing d with
  | nil => rfl
  | cons e rest ih =>
    obtain ⟨k, v⟩ := e
    obtain ⟨h1, h2⟩ := List.pairwise_cons.1 hr
    unfold Points.compress
    split
    · next hv =>
      subst hv
      rw [ih v h2]
      simp only [Points.read]
      split
      · next hlt => exact Points.read_of_lt v rest i fun q hq => Nat.lt_trans hlt (h1 q hq)
      · rfl
    · simp only [Points.read]
      rw [ih v h2]

theorem Points.read_append_left {α : Type} (d : α) (a b : Points α) (i : Nat) (h : ∀ q ∈ b, i < q.1) :
    Points.read d (a ++ b) i = Points.read d a i := by
  induction a generalizing d with
  | nil => exact Points.read_of_lt d b i h
  | cons e rest ih =>
    obtain ⟨k, v⟩ := e
    simp only [List.cons_append, Points.read]
    rw [ih v]

theorem Points.read_append_right {α : Type} (d : α) (a b : Points α) (k : Nat) (v : α) (i : Nat)
    (h : ∀ q ∈ a, q.1 ≤ i) (hk : k ≤ i) : Points.read d (a ++ (k, v) :: b) i = Points.read v b i := by
  induction a generalizing d with
  | nil => exact if_neg (by omega)
  | cons e rest ih =>
    obtain ⟨j, w⟩ := e
    simp only [List.cons_append, Points.read]
    rw [if_neg (by have := h (j, w) (List.mem_cons_self ..); simp only at this; omega)]
    exact ih w fun q hq => h q (List.mem_cons_of_mem _ hq)

theorem Points.read_below {α : Type} (d : α) (p : Points α) (lo i : Nat) (hr : p.Rising) (h : i < lo) :
    Points.read d (p.below lo) i = Points.read d p i := by
  induction p generalizing d with
  | nil => rfl
  | cons e rest ih =>
    obtain ⟨k, v⟩ := e
    obtain ⟨h1, h2⟩ := List.pairwise_cons.1 hr
    by_cases hk : k < lo
    · simp only [Points.below, List.filter_cons, hk, decide_true, if_true, Points.read]
      have := ih v h2
      simp only [Points.below] at this
      rw [this]
    · have none : (rest.filter fun q => decide (q.1 < lo)) = [] := by
        rw [List.filter_eq_nil_iff]
        intro q hq
        have := h1 q hq
        simp only [decide_eq_true_eq]
        omega
      simp only [Points.below, List.filter_cons, hk, decide_false, Bool.false_eq_true, if_false, none, Points.read]
      rw [if_pos (by omega)]

theorem Points.read_above {α : Type} (d : α) (p : Points α) (hi i : Nat) (hr : p.Rising) (h : hi ≤ i) :
    Points.read (Points.read d p hi) (p.above hi) i = Points.read d p i := by
  induction p generalizing d with
  | nil => rfl
  | cons e rest ih =>
    obtain ⟨k, v⟩ := e
    obtain ⟨h1, h2⟩ := List.pairwise_cons.1 hr
    by_cases hk : hi < k
    · have all : (rest.filter fun q => decide (hi < q.1)) = rest := by
        rw [List.filter_eq_self]
        intro q hq
        have := h1 q hq
        simp only [decide_eq_true_eq]
        omega
      simp only [Points.above, List.filter_cons, hk, decide_true, if_true, all, Points.read]
    · have := ih v h2
      simp only [Points.above] at this
      simp only [Points.above, List.filter_cons, hk, decide_false, Points.read]
      simp only [Bool.false_eq_true, if_false]
      rw [this, if_neg (by omega)]

/-! ### Splices -/

/-- What may be spliced over [lo, hi): rising points within the range, of which the first is at `lo`. -/
def Points.Covers {α : Type} (q : Points α) (lo hi : Nat) : Prop :=
  ∃ v rest, q = (lo, v) :: rest ∧ q.Rising ∧ ∀ e ∈ q, e.1 < hi

theorem Points.splice_rising {α : Type} (d : α) (p q : Points α) (lo hi : Nat) (hp : p.Rising) (hlt : lo < hi)
    (hq : q.Covers lo hi) : Points.Rising (p.below lo ++ (q ++ (hi, p.read d hi) :: p.above hi)) := by
  obtain ⟨v, rest, rfl, hr, hh⟩ := hq
  have ge : ∀ e ∈ (lo, v) :: rest, lo ≤ e.1 := by
    intro e he
    rcases List.mem_cons.1 he with rfl | he
    · exact Nat.le_refl _
    · exact Nat.le_of_lt ((List.pairwise_cons.1 hr).1 e he)
  have lowMem : ∀ e ∈ p.below lo, e.1 < lo := by
    intro e he
    simpa [Points.below] using (List.mem_filter.1 he).2
  have highMem : ∀ e ∈ p.above hi, hi < e.1 := by
    intro e he
    simpa [Points.above] using (List.mem_filter.1 he).2
  refine List.pairwise_append.2 ⟨hp.sublist List.filter_sublist, ?_, ?_⟩
  · refine List.pairwise_append.2 ⟨hr, ?_, ?_⟩
    · exact List.pairwise_cons.2 ⟨fun e he => highMem e he, hp.sublist List.filter_sublist⟩
    · intro a ha b hb
      rcases List.mem_cons.1 hb with rfl | hb
      · exact hh a ha
      · exact Nat.lt_trans (hh a ha) (highMem b hb)
  · intro a ha b hb
    have h1 := lowMem a ha
    rcases List.mem_append.1 hb with hb | hb
    · exact Nat.lt_of_lt_of_le h1 (ge b hb)
    · rcases List.mem_cons.1 hb with rfl | hb
      · exact Nat.lt_trans h1 hlt
      · exact Nat.lt_trans (Nat.lt_trans h1 hlt) (highMem b hb)

/-- A splice keeps the canonical form. -/
theorem Points.splice_wf {α : Type} [DecidableEq α] (d : α) (p q : Points α) (lo hi : Nat) (hp : Points.wf d p = true)
    (hq : lo < hi → q.Covers lo hi) : Points.wf d (Points.splice d p q lo hi) = true := by
  unfold Points.splice
  split
  · next hlt =>
    exact Points.compress_wfFrom _ 0 d (Points.splice_rising d p q lo hi (Points.wf_rising hp) hlt (hq hlt))
      fun _ _ => Nat.zero_le _
  · exact hp

/-- A spliced range reads as what was spliced in, and every other index as before. -/
theorem Points.read_splice {α : Type} [DecidableEq α] (d : α) (p q : Points α) (lo hi i : Nat)
    (hp : Points.wf d p = true) (hq : lo < hi → q.Covers lo hi) :
    Points.read d (Points.splice d p q lo hi) i =
      if lo ≤ i ∧ i < hi then Points.read d q i else Points.read d p i := by
  have hr := Points.wf_rising hp
  unfold Points.splice
  split
  · next hlt =>
    rw [Points.read_compress _ d i (Points.splice_rising d p q lo hi hr hlt (hq hlt))]
    obtain ⟨v, rest, rfl, hqr, hh⟩ := hq hlt
    have lowMem : ∀ e ∈ p.below lo, e.1 < lo := by
      intro e he
      simpa [Points.below] using (List.mem_filter.1 he).2
    have highMem : ∀ e ∈ p.above hi, hi < e.1 := by
      intro e he
      simpa [Points.above] using (List.mem_filter.1 he).2
    have geMem : ∀ e ∈ rest, lo < e.1 := (List.pairwise_cons.1 hqr).1
    rcases Nat.lt_or_ge i lo with h | h
    · rw [if_neg (by omega), Points.read_append_left, Points.read_below d p lo i hr h]
      intro e he
      rcases List.mem_append.1 he with he | he
      · rcases List.mem_cons.1 he with rfl | he
        · exact h
        · exact Nat.lt_trans h (geMem e he)
      · rcases List.mem_cons.1 he with rfl | he
        · exact Nat.lt_trans h hlt
        · exact Nat.lt_trans (Nat.lt_trans h hlt) (highMem e he)
    · rcases Nat.lt_or_ge i hi with h' | h'
      · rw [if_pos ⟨h, h'⟩, List.cons_append, Points.read_append_right d _ _ lo v i
          (fun e he => Nat.le_trans (Nat.le_of_lt (lowMem e he)) h) h, Points.read_append_left]
        · simp only [Points.read]
          rw [if_neg (by omega)]
        · intro e he
          rcases List.mem_cons.1 he with rfl | he
          · exact h'
          · exact Nat.lt_trans h' (highMem e he)
      · rw [if_neg (by omega), ← List.append_assoc, Points.read_append_right d _ _ hi _ i _ h',
          Points.read_above d p hi i hr h']
        intro e he
        rcases List.mem_append.1 he with he | he
        · exact Nat.le_trans (Nat.le_of_lt (lowMem e he)) h
        · exact Nat.le_trans (Nat.le_of_lt (hh e he)) h'
  · rw [if_neg (by omega)]

/-! ### One pixel -/

theorem Points.single_covers {α : Type} (k : Nat) (v : α) : Points.Covers [(k, v)] k (k + 1) :=
  ⟨v, [], rfl, List.pairwise_singleton .., by simp⟩

/-- A pixel write sets its own pixel and no other. -/
theorem Plane.level_setPixel (p : Plane) (x y i j : Nat) (v : Level) (hp : p.wf = true) (hx : x < 1248) (hi : i < 1248) :
    (p.setPixel x y v).level i j = if i = x ∧ j = y then v else p.level i j := by
  simp only [Plane.level, Plane.setPixel]
  rw [Points.read_splice white p _ _ _ _ hp fun _ => Points.single_covers ..]
  have h1 : pixelIndex x y = 1248 * y + x := rfl
  have h2 : pixelIndex i j = 1248 * j + i := rfl
  by_cases h : i = x ∧ j = y
  · obtain ⟨rfl, rfl⟩ := h
    rw [if_pos (by omega), if_pos ⟨rfl, rfl⟩]
    simp only [Points.read]
    rw [if_neg (by omega)]
  · rw [if_neg h, if_neg (by omega)]

/-- A pixel write keeps the canonical form. -/
theorem Plane.setPixel_wf (p : Plane) (x y : Nat) (v : Level) (hp : p.wf = true) : (p.setPixel x y v).wf = true :=
  Points.splice_wf white p _ _ _ hp fun _ => Points.single_covers ..

/-! ### A rectangle -/

theorem Points.mapped_covers {α β : Type} (f : α → β) (d : α) (p : Points α) (lo hi : Nat) (hp : p.Rising)
    (h : lo < hi) : (p.mapped f d lo hi).Covers lo hi := by
  refine ⟨_, _, rfl, ?_, ?_⟩
  · refine List.pairwise_cons.2 ⟨?_, ?_⟩
    · intro e he
      obtain ⟨q, hq, rfl⟩ := List.mem_map.1 he
      have := (List.mem_filter.1 hq).2
      simp only [Bool.and_eq_true, decide_eq_true_eq] at this
      exact this.1
    · exact List.pairwise_map.2 (hp.sublist List.filter_sublist)
  · intro e he
    rcases List.mem_cons.1 he with rfl | he
    · exact h
    · obtain ⟨q, hq, rfl⟩ := List.mem_map.1 he
      have := (List.mem_filter.1 hq).2
      simp only [Bool.and_eq_true, decide_eq_true_eq] at this
      exact this.2

theorem Points.read_map {α β : Type} (f : α → β) (d : α) (p : Points α) (i : Nat) :
    Points.read (f d) (p.map fun q => (q.1, f q.2)) i = f (Points.read d p i) := by
  induction p generalizing d with
  | nil => rfl
  | cons e rest ih =>
    obtain ⟨k, v⟩ := e
    simp only [List.map_cons, Points.read]
    rw [ih v]
    split <;> rfl

theorem Points.read_between {α : Type} (d : α) (p : Points α) (lo hi i : Nat) (hp : p.Rising) (h : lo ≤ i)
    (h' : i < hi) : Points.read (Points.read d p lo) (p.between lo hi) i = Points.read d p i := by
  rw [← Points.read_above d p lo i hp h, ← Points.read_below (Points.read d p lo) (p.above lo) hi i
    (hp.sublist List.filter_sublist) h']
  congr 1
  simp only [Points.between, Points.above, Points.below, List.filter_filter]
  congr 1
  funext q
  exact Bool.and_comm _ _

/-- The points of a mapped range read as the map of what the range read. -/
theorem Points.read_mapped {α β : Type} (f : α → β) (d : α) (e : β) (p : Points α) (lo hi i : Nat) (hp : p.Rising)
    (h : lo ≤ i) (h' : i < hi) : Points.read e (p.mapped f d lo hi) i = f (Points.read d p i) := by
  simp only [Points.mapped, Points.read]
  rw [if_neg (by omega), Points.read_map f (Points.read d p lo) (p.between lo hi) i,
    Points.read_between d p lo hi i hp h h']

/-- The columns and rows that the ranges of a rectangle stand for. -/
theorem Rect.ranges_hold (r : Rect) (x y : Nat) (hr : r.x0 ≤ r.x1) (hx1 : r.x1 ≤ 1247) (hy : r.y0 ≤ r.y1)
    (hx : x < 1248) :
    (∃ e ∈ r.ranges, e.1 ≤ pixelIndex x y ∧ pixelIndex x y < e.2) ↔ r.holds x y = true := by
  simp only [Rect.ranges, Rect.holds, Bool.and_eq_true, decide_eq_true_eq, pixelIndex, Config.columns]
  split
  · next h =>
    simp only [List.mem_singleton, exists_eq_left]
    omega
  · simp only [List.mem_map, List.mem_range]
    constructor
    · rintro ⟨e, ⟨k, hk, rfl⟩, h1, h2⟩
      simp only at h1 h2
      omega
    · intro h
      exact ⟨_, ⟨y - r.y0, by omega, rfl⟩, by simp only; omega, by simp only; omega⟩

/-- A plane spliced over a list of ranges, each from the same source: canonical, and read range by range. -/
theorem Plane.copyRanges (f : Level → Level) (src : Plane) (hs : src.wf = true) (ranges : List (Nat × Nat)) (p : Plane)
    (hp : p.wf = true) :
    let q := ranges.foldl (fun q e => Points.splice white q (src.mapped f white e.1 e.2) e.1 e.2) p
    Points.wf white q = true ∧ ∀ i, Points.read white q i =
      if (∃ e ∈ ranges, e.1 ≤ i ∧ i < e.2) then f (Points.read white src i) else Points.read white p i := by
  have hr := Points.wf_rising hs
  induction ranges generalizing p with
  | nil => exact ⟨hp, fun i => by simp⟩
  | cons e rest ih =>
    have hc : e.1 < e.2 → (src.mapped f white e.1 e.2).Covers e.1 e.2 := Points.mapped_covers f white src e.1 e.2 hr
    obtain ⟨h1, h2⟩ := ih _ (Points.splice_wf white p _ e.1 e.2 hp hc)
    refine ⟨h1, fun i => ?_⟩
    simp only [List.foldl_cons]
    rw [h2 i, Points.read_splice white p _ e.1 e.2 i hp hc]
    by_cases h : ∃ e ∈ rest, e.1 ≤ i ∧ i < e.2
    · obtain ⟨g, hg, h'⟩ := h
      rw [if_pos ⟨g, hg, h'⟩, if_pos ⟨g, List.mem_cons_of_mem _ hg, h'⟩]
    · rw [if_neg h]
      by_cases h' : e.1 ≤ i ∧ i < e.2
      · rw [if_pos h', if_pos ⟨e, List.mem_cons_self .., h'⟩, Points.read_mapped f white white src e.1 e.2 i hr h'.1 h'.2]
      · rw [if_neg h', if_neg]
        rintro ⟨g, hg, hg'⟩
        rcases List.mem_cons.1 hg with rfl | hg
        · exact h' hg'
        · exact h ⟨g, hg, hg'⟩

/-- A copied rectangle reads as `f` of its source, and every other pixel as before. -/
theorem Plane.level_copyRect (f : Level → Level) (src p : Plane) (r : Rect) (x y : Nat) (hs : src.wf = true)
    (hp : p.wf = true) (hr : r.x0 ≤ r.x1) (hx1 : r.x1 ≤ 1247) (hy : r.y0 ≤ r.y1) (hx : x < 1248) :
    (Plane.copyRect f src r p).level x y = if r.holds x y = true then f (src.level x y) else p.level x y := by
  simp only [Plane.level, Plane.copyRect]
  rw [(Plane.copyRanges f src hs r.ranges p hp).2]
  simp only [Rect.ranges_hold r x y hr hx1 hy hx]

/-- A copied rectangle keeps the canonical form. -/
theorem Plane.copyRect_wf (f : Level → Level) (src p : Plane) (r : Rect) (hs : src.wf = true) (hp : p.wf = true) :
    (Plane.copyRect f src r p).wf = true :=
  (Plane.copyRanges f src hs r.ranges p hp).1

end Sys2Proof.Machine
end

