-- ==== Sys2Proof/Laws/Scheduler.lean ====
section
/-! SUPPORT. What a scan, a request and the end of a stream can reach: one frame for the scheduler's shared operations. -/

namespace Sys2Proof.Machine

/-- From `s` to `t` only the scheduler, the panel drive, the supply, the goal and current planes and the event flags may
have changed. -/
structure State.PanelOnly (s t : State) : Prop where
  link : t.link = s.link
  faces : t.faces = s.faces
  setter : t.setter = s.setter
  lines : t.lines = s.lines
  marks : t.marks = s.marks
  renderer : t.renderer = s.renderer
  target : t.image.target = s.image.target
  turn : t.image.turn = s.image.turn
  port : t.port = s.port
  power : t.power = s.power
  pending : t.pending = s.pending

theorem State.PanelOnly.refl (s : State) : s.PanelOnly s := ⟨rfl, rfl, rfl, rfl, rfl, rfl, rfl, rfl, rfl, rfl, rfl⟩

theorem State.PanelOnly.trans {s t u : State} (a : s.PanelOnly t) (b : t.PanelOnly u) : s.PanelOnly u :=
  ⟨b.link.trans a.link, b.faces.trans a.faces, b.setter.trans a.setter, b.lines.trans a.lines, b.marks.trans a.marks,
    b.renderer.trans a.renderer, b.target.trans a.target, b.turn.trans a.turn, b.port.trans a.port,
    b.power.trans a.power, b.pending.trans a.pending⟩

/-- Whatever the scheduler, the drive, the supply and the flags become, the rest stays. -/
theorem State.PanelOnly.of_eq (s : State) (sched : Scheduler) (drive : PanelDrive) (supply : Supply) (events : Events)
    (current goal : Plane) :
    s.PanelOnly { s with
      sched := sched, drive := drive, supply := supply, events := events
      image := { s.image with current := current, goal := goal } } :=
  ⟨rfl, rfl, rfl, rfl, rfl, rfl, rfl, rfl, rfl, rfl, rfl⟩

theorem State.PanelOnly.raise (s : State) (e : Event) : s.PanelOnly (s.raise e) :=
  ⟨rfl, rfl, rfl, rfl, rfl, rfl, rfl, rfl, rfl, rfl, rfl⟩

theorem State.holdForWave_panelOnly (s : State) : s.PanelOnly s.holdForWave := by
  unfold State.holdForWave
  split
  · exact .refl s
  · exact ⟨rfl, rfl, rfl, rfl, rfl, rfl, rfl, rfl, rfl, rfl, rfl⟩

/-- A latch that starts its entry reaches the panel's side alone, and leaves the current plane and the supply. -/
theorem State.latch_started {s t : State} {older : List Request} {i : Nat} {e : Request}
    (h : s.latch older i e = .started t) :
    s.PanelOnly t ∧ t.image.current = s.image.current ∧ t.supply = s.supply ∧ t.events = s.events := by
  unfold State.latch at h
  simp only at h
  split at h
  · cases h
  · split at h
    · cases h
    · cases h
      exact ⟨⟨rfl, rfl, rfl, rfl, rfl, rfl, rfl, rfl, rfl, rfl, rfl⟩, rfl, rfl, rfl⟩

theorem State.holdForWave_rest (s : State) :
    s.holdForWave.image = s.image ∧ s.holdForWave.supply = s.supply ∧ s.holdForWave.drive = s.drive := by
  unfold State.holdForWave
  split <;> exact ⟨rfl, rfl, rfl⟩

/-- Judging the entries reaches the panel's side alone, and leaves the current plane and the supply. -/
theorem scanEntries_panelOnly (entries : List Request) (older : List Request) (want : Bool) (s : State) :
    s.PanelOnly (scanEntries older entries want s) ∧
      (scanEntries older entries want s).image.current = s.image.current ∧
      (scanEntries older entries want s).supply = s.supply := by
  induction entries generalizing older want s with
  | nil => exact ⟨⟨rfl, rfl, rfl, rfl, rfl, rfl, rfl, rfl, rfl, rfl, rfl⟩, rfl, rfl⟩
  | cons e rest ih =>
    unfold scanEntries
    split
    · exact ⟨⟨rfl, rfl, rfl, rfl, rfl, rfl, rfl, rfl, rfl, rfl, rfl⟩, rfl, rfl⟩
    · split
      · exact ih ..
      · have held : ∀ older, s.PanelOnly (scanEntries older rest true s.holdForWave) ∧
            (scanEntries older rest true s.holdForWave).image.current = s.image.current ∧
            (scanEntries older rest true s.holdForWave).supply = s.supply := by
          intro older
          obtain ⟨h1, h2, h3⟩ := ih older true s.holdForWave
          obtain ⟨g1, g2, _⟩ := s.holdForWave_rest
          exact ⟨s.holdForWave_panelOnly.trans h1, h2.trans (by rw [g1]), h3.trans g2⟩
        split
        · exact held _
        · split
          · next t ht =>
            obtain ⟨h1, h2, h3, _⟩ := State.latch_started ht
            obtain ⟨g1, g2, g3⟩ := ih older want t
            exact ⟨h1.trans g1, g2.trans h2, g3.trans h3⟩
          · exact ih ..
          · exact held _

theorem State.judgeEntries_panelOnly (s : State) : s.PanelOnly s.judgeEntries :=
  (scanEntries_panelOnly s.sched.queue [] false s).1

theorem State.judgeEntries_current (s : State) : s.judgeEntries.image.current = s.image.current :=
  (scanEntries_panelOnly s.sched.queue [] false s).2.1

theorem State.judgeEntries_supply (s : State) : s.judgeEntries.supply = s.supply :=
  (scanEntries_panelOnly s.sched.queue [] false s).2.2

theorem State.askPower_panelOnly (s : State) : s.PanelOnly s.askPower := by
  unfold State.askPower
  simp only
  split
  · split
    · refine State.PanelOnly.trans ?_ (State.judgeEntries_panelOnly _)
      exact ⟨rfl, rfl, rfl, rfl, rfl, rfl, rfl, rfl, rfl, rfl, rfl⟩
    · exact ⟨rfl, rfl, rfl, rfl, rfl, rfl, rfl, rfl, rfl, rfl, rfl⟩
  · exact ⟨rfl, rfl, rfl, rfl, rfl, rfl, rfl, rfl, rfl, rfl, rfl⟩

theorem State.askPower_current (s : State) : s.askPower.image.current = s.image.current := by
  unfold State.askPower
  simp only
  split
  · split
    · exact State.judgeEntries_current _
    · rfl
  · rfl

/-- A scan reaches the panel's side alone. -/
theorem State.scan_panelOnly (s : State) : s.PanelOnly s.scan := by
  have cool : s.PanelOnly { s with sched := { s.sched with tempHold := false } } :=
    ⟨rfl, rfl, rfl, rfl, rfl, rfl, rfl, rfl, rfl, rfl, rfl⟩
  unfold State.scan
  split
  · exact ⟨rfl, rfl, rfl, rfl, rfl, rfl, rfl, rfl, rfl, rfl, rfl⟩
  · split
    · split
      · exact .refl s
      · exact ⟨rfl, rfl, rfl, rfl, rfl, rfl, rfl, rfl, rfl, rfl, rfl⟩
    · simp only
      split
      · exact cool.trans (State.judgeEntries_panelOnly _)
      · exact cool.trans (State.askPower_panelOnly _)
      · exact cool
      · exact cool

/-- A scan leaves the current plane. -/
theorem State.scan_current (s : State) : s.scan.image.current = s.image.current := by
  unfold State.scan
  split
  · rfl
  · split
    · split <;> rfl
    · simp only
      split
      · exact State.judgeEntries_current _
      · exact State.askPower_current _
      · rfl
      · rfl

theorem State.takeRequest_panelOnly (r : Request) (s : State) :
    s.PanelOnly (s.takeRequest r) ∧ (s.takeRequest r).image = s.image := by
  unfold State.takeRequest
  split
  · exact ⟨⟨rfl, rfl, rfl, rfl, rfl, rfl, rfl, rfl, rfl, rfl, rfl⟩, rfl⟩
  · split <;> exact ⟨⟨rfl, rfl, rfl, rfl, rfl, rfl, rfl, rfl, rfl, rfl, rfl⟩, rfl⟩

theorem State.cancelQuiet_panelOnly (s : State) : s.PanelOnly s.cancelQuiet :=
  ⟨rfl, rfl, rfl, rfl, rfl, rfl, rfl, rfl, rfl, rfl, rfl⟩

/-- A request that reaches the scheduler reaches the panel's side alone. -/
theorem State.post_panelOnly (r : Request) (s : State) : s.PanelOnly (s.post r) := by
  unfold State.post
  split
  · exact .refl s
  · exact ((s.takeRequest_panelOnly r).1.trans (State.cancelQuiet_panelOnly _)).trans (State.scan_panelOnly _)

/-- A request leaves the current plane. -/
theorem State.post_current (r : Request) (s : State) : (s.post r).image.current = s.image.current := by
  unfold State.post
  split
  · rfl
  · rw [State.scan_current]
    exact congrArg ImageMemory.current (s.takeRequest_panelOnly r).2

/-- The end of the port's work makes the port IDLE and otherwise reaches the panel's side alone. -/
theorem State.endPortWork_eq (s : State) :
    ({ s with port := { s.port with state := .idle } } : State).PanelOnly s.endPortWork ∧
      s.endPortWork.image.current = s.image.current := by
  unfold State.endPortWork State.postWindow
  split
  · exact ⟨.refl _, rfl⟩
  · exact ⟨State.post_panelOnly _ _, State.post_current _ _⟩

theorem State.tidyZone_panelOnly (s : State) (z : Nat) : s.PanelOnly (s.tidyZone z) := by
  unfold State.tidyZone
  split
  · refine State.PanelOnly.trans ?_ (State.post_panelOnly _ _)
    exact ⟨rfl, rfl, rfl, rfl, rfl, rfl, rfl, rfl, rfl, rfl, rfl⟩
  · exact .refl s

theorem tidyZones_panelOnly (zones : List Nat) (s : State) : s.PanelOnly (zones.foldl State.tidyZone s) := by
  induction zones generalizing s with
  | nil => exact .refl s
  | cons z rest ih => exact (s.tidyZone_panelOnly z).trans (ih _)

theorem State.settleExpires_panelOnly (s : State) : s.PanelOnly s.settleExpires := by
  unfold State.settleExpires
  simp only
  split
  · refine State.PanelOnly.trans ?_ (tidyZones_panelOnly _ _)
    exact ⟨rfl, rfl, rfl, rfl, rfl, rfl, rfl, rfl, rfl, rfl, rfl⟩
  · exact ⟨rfl, rfl, rfl, rfl, rfl, rfl, rfl, rfl, rfl, rfl, rfl⟩

/-- A completion reaches the panel's side alone. -/
theorem State.completion_panelOnly (i : Nat) (d : Driving) (s : State) : s.PanelOnly (s.completion i d) := by
  have first : s.PanelOnly (s.completeSlot i d).scan := by
    refine State.PanelOnly.trans ?_ (State.scan_panelOnly _)
    exact ⟨rfl, rfl, rfl, rfl, rfl, rfl, rfl, rfl, rfl, rfl, rfl⟩
  unfold State.completion
  simp only
  split
  · refine first.trans ?_
    unfold State.startSettle
    split
    · exact State.settleExpires_panelOnly _
    · exact ⟨rfl, rfl, rfl, rfl, rfl, rfl, rfl, rfl, rfl, rfl, rfl⟩
  · exact first

end Sys2Proof.Machine
end

