-- ==== Sys2Proof/WellFormed.lean ====
section
/-! DEFINITION. Which terms of `Instr` are well formed.

Every operand type holds exactly the values the link can carry, so one check remains: a RESET command byte that is
clocked in is the row RESET (R177), not the row BYTE_CLOCKED_IN. The machine gives the ill-formed spelling the same
effect, so the check only keeps each event under one name. -/

namespace Sys2Proof

/-- The term does not spell the clocking in of a RESET command byte (code 0x07) as a plain byte. -/
def WellFormed (i : Instr) : Bool :=
  decide (i ≠ .byteClockedIn .command 0x07)

end Sys2Proof
end

