-- ==== Sys2Proof/Tests/Slice0.lean ====
section
/-! SUPPORT. Tests of the model against the tables and worked sequences of the spec, and for every statement with hypotheses
a state and operands that meet them. -/

namespace Sys2Proof.Tests

open Machine

-- One theorem after another: many kernel evaluations at once would each hold a thread of the compiler.
set_option Elab.async false

/-! ### Small states -/

/-- The part after power-on and start-up. -/
def active : State := { State.reset with power := ⟨false, false, false⟩ }

/-- The part in SLEEP. -/
def sleeping : State := { State.reset with power := ⟨true, false, false⟩ }

/-- The next state of a command. -/
def after (c : Instr) (s : State) : State :=
  match exec c s with
  | .next t => t
  | _ => s

/-- The FIFO holds these items. -/
def holding (items : List FifoItem) (s : State) : State := { s with link := { s.link with fifo := items } }

/-- The command byte of `c` is next. -/
def atByte (c : Cmd) (s : State) : State := holding [.byte .command c.code] s

/-- The byte `b` is next, while `taking` is being taken. -/
def atParam (taking : Taking) (b : Byte) (s : State) : State :=
  { s with link := { s.link with fifo := [.byte .parameter b], taking := taking } }

/-- The last of the parameters `got ++ [b]` of `c` is next. -/
def atLast (c : Cmd) (got : List Byte) (b : Byte) (s : State) : State := atParam (.params c got) b s

theorem at_byte (c : Cmd) (s : State) : (atByte c s).AtCommandByte c := ⟨[], rfl⟩

theorem at_last (c : Cmd) (got : List Byte) (b : Byte) (s : State) (h : got.length + 1 = c.params) :
    (atLast c got b s).AtLastParam c (got ++ [b]) := ⟨got, b, [], rfl, rfl, rfl, by simpa using h⟩

theorem at_param (taking : Taking) (b : Byte) (s : State) : (atParam taking b s).AtParam b := ⟨[], rfl⟩

/-! ### Well-formed commands and the decoder -/

/-- The RESET byte has a row of its own, so it is no well-formed BYTE_CLOCKED_IN; every other byte is. -/
theorem test_reset_byte_is_ill_formed : WellFormed (.byteClockedIn .command 0x07) = false := by decide

theorem test_other_bytes_are_well_formed :
    WellFormed (.byteClockedIn .parameter 0x07) = true ∧ WellFormed (.byteClockedIn .command 0x01) = true := by decide

/-- No row of the table gives bits. -/
theorem test_no_word_spells_a_command : decodeTableWord 8 0x07 = none ∧ (active.withFetchWord 8 0x07) = active :=
  ⟨rfl, rfl⟩

theorem test_the_block_idles : step active = .next active := rfl

/-! ### The command link and the resets -/

/-- A byte clocked in joins the FIFO (R171); the RESET byte is the row RESET (R177). -/
theorem test_byte_clocked_in :
    (after (.byteClockedIn .command 0x11) active).link.fifo = [.byte .command 0x11] ∧
    (after (.byteClockedIn .command 0x11) active).link.framing = .stream .textLoad ∧
    (after (.byteClockedIn .parameter 5) active).link.fifo = [] := by decide

/-- A read with nothing ahead of it acts before its first reply position (R174). -/
theorem test_read_with_nothing_ahead :
    let t := after (.byteClockedIn .parameter 0) (after (.byteClockedIn .command 0x02) active)
    t.link.miso = 0xA5 ∧ t.link.fifo = [] ∧ (after (.byteClockedIn .parameter 0) t).link.miso = 0x57 := by decide

/-- While a byte ahead of the read waits, its reply positions return 0x00 (R174). -/
theorem test_wait_bytes :
    let t := after (.byteClockedIn .parameter 0)
      (after (.byteClockedIn .command 0x02) (after (.byteClockedIn .command 0x50) active))
    t.link.miso = 0 ∧ t.link.fifo.length = 2 ∧
    (after (.byteClockedIn .parameter 0) (after .idRead (after .fifoByteArrival t))).link.miso = 0xA5 := by decide

/-- A byte behind a CS rising follows no command (log entry 4). -/
theorem test_byte_after_cs_rising :
    let t := after (.byteClockedIn .parameter 5) (after (.csRising .edge) (after (.byteClockedIn .command 0x05) active))
    t.link.fifo = [.byte .command 0x05, .csRise] ∧ t.raised .linkOverrun = false := by decide

/-- CS rising cuts a command short of its parameters (R172). -/
theorem test_cs_rising :
    (after (.csRising .arrival) (holding [.csRise] { active with link := { active.link with
      taking := .params .refresh [0, 0] } })).link.lastRefusal = ⟨0x50, 2⟩ := by decide

/-- A command byte lost at overrun is recorded SHORT at its place (R176). -/
theorem test_dropped_command_place :
    (after .droppedCommandPlace (holding [.dropped 0x13] active)).link.lastRefusal = ⟨0x13, 2⟩ := by decide

theorem test_unknown_command :
    (after .unknownCommand (holding [.byte .command 0x7F] active)).link.lastRefusal = ⟨0x7F, 1⟩ ∧
    (after .unknownCommand (holding [.byte .command 0x7F] active)).events.flags = 0x0800 := by decide

theorem test_fifo_byte_arrival :
    (after .fifoByteArrival (atByte .refresh active)).link.taking = .params .refresh [] ∧
    (after .fifoByteArrival (atByte .refresh sleeping)).link.lastRefusal = ⟨0x50, 11⟩ := by decide

/-- The identification record (R170). -/
theorem test_id_read :
    (after .idRead { atByte .idRead active with link := { (atByte .idRead active).link with reply := .waiting } }).link.reply =
      .data [0xA5, 0x57, 0x04, 0x60, 0x01] := by decide

/-- The status record after power-on is all 0 (R181 with the reset values). -/
theorem test_status_read :
    (after .statusRead { atByte .statusRead active with
      link := { (atByte .statusRead active).link with reply := .waiting } }).link.reply =
      .data (0xA5 :: List.replicate 18 0) := by decide +kernel

theorem test_event_ack :
    (after .eventAck (atLast .eventAck [0xFF] 0x01 { active with events := ⟨0x0805, 0, 0⟩ })).events.flags = 0x0004 := by
  decide

theorem test_route_set :
    (after .routeSet (atLast .routeSet [0xFF, 0xFF, 0x00] 0x08 active)).events = ⟨0, 0x3FFF, 0x0008⟩ := by decide

theorem test_sleep :
    (after .sleep (atByte .sleep active)).power.asleep = true ∧
    (after .sleep (atByte .sleep { active with renderer := ⟨[(0, .page)], none⟩ })).link.lastRefusal = ⟨0x05, 4⟩ := by decide

theorem test_wake :
    (after .wake (atByte .wake sleeping)).power = ⟨true, true, false⟩ ∧
    (after .wakeDone { active with power := ⟨true, true, false⟩ }).power = ⟨false, false, false⟩ := by decide

theorem test_start_up :
    State.reset.busy = true ∧ (after .startUpDone State.reset).busy = false := by decide

/-- Power-on clears the tables, the RESET pin keeps the READY ones (R158). -/
theorem test_resets_and_tables :
    let s : State := { active with drive := { active.drive with
      tables := put (put active.drive.tables 12 (.ready 1 [])) 3 (.loading 1 []) } }
    (after .powerOn s).drive.table .gray 4 = .absent ∧ (after .resetPin s).drive.table .gray 4 = .ready 1 [] ∧
    (after .resetPin s).drive.table .fast 3 = .absent ∧ (after .resetPin s).power.startUp = true := by decide +kernel

/-- The RESET command ends the command being taken, keeps its record and clears the flags (R177). -/
theorem test_reset_command :
    let t := after .reset { active with link := { active.link with taking := .params .compose [0] } }
    t.link.lastRefusal = ⟨0x12, 2⟩ ∧ t.events.flags = 0 ∧ t.power.startUp = false := by decide

/-- A RESET that cuts an IMAGE WRITE short on a running part leaves the planes and panel-known as they were, though the
stream's end posts a request that a scan would start (R8, R106, R177). -/
theorem test_reset_of_a_stream :
    let s : State := { active with
      link := { active.link with taking := .image }
      port := ⟨⟨0, 0, 9, 9⟩, some .fast, 7, .writing⟩
      image := ⟨[(0, 3)], [], [], .port⟩
      drive := { active.drive with
        tables := mapPlaces (fun i _ => if i % 8 = 4 then Wave.ready 3 [] else .absent) active.drive.tables
        reading := some 22, firstReading := false, band := 4, age := .running }
      supply := { active.supply with state := .on, pgood := true }
      sched := { active.sched with panelKnown := true } }
    let t := after .reset s
    s.endTaking.sched.anyDriving = true ∧ t.sched.panelKnown = true ∧ t.image = s.image ∧ t.port.position = 0 ∧
      t.sched.queue = [] ∧ t.sched.anyDriving = false := by decide +kernel

/-! ### Template, text and lines -/

/-- H + B + F must be 1664 (R13). -/
theorem test_template_set :
    (after .templateSet (atLast .templateSet [0, 0, 0x06, 0x80, 0, 0, 0, 64, 1, 0x2E, 48, 36, 20, 24] 15 active)).setter.template =
      ⟨0, 1664, 0, 64, 302, 48, 36, 20, 24, 15⟩ ∧
    (after .templateSet (atLast .templateSet [0, 0, 0x06, 0x50, 0, 0, 0, 64, 1, 0x2E, 48, 36, 20, 24] 15 active)).link.lastRefusal =
      ⟨0x10, 3⟩ := by decide

theorem test_text_load :
    (after .textLoad (atLast .textLoad [0, 0, 3] 0xE8 active)).setter.base = 1000 ∧
    (after .textLoad (atLast .textLoad [0xFF, 0xFF, 0xE0] 0x00 active)).link.lastRefusal = ⟨0x11, 3⟩ := by decide

theorem test_text_load_byte :
    (after .textLoadByte (atParam (.text (.code 3 2 [0, 0])) 0x41 active)).setter.text = [⟨0x41, 3⟩] ∧
    (after .textLoadByte (atParam (.text .face) 16 active)).link.lastRefusal = ⟨0x11, 3⟩ := by decide

/-- A glyph of the tests: code 0x100 + advance has that advance and no bitmap. -/
def glyph (face code advance : Nat) : Glyph := ⟨face, code, advance, 0, 0, 0, 0, none, 0⟩

/-- Face 3 of the worked sequence of 3.7: space advance 11, hyphen advance 12. -/
def font : FaceStore := { FaceStore.initial with
  faces := put (put FaceStore.initial.faces 3 ⟨.ready, 11, 0x2D, 0⟩) 15 ⟨.ready, 10, 0, 0⟩
  directory := [glyph 3 0x2D 12, glyph 3 0x10A 10, glyph 3 0x10B 11, glyph 3 0x10C 12, glyph 3 0x10D 13,
    glyph 3 0x10E 14, glyph 3 0x10F 15, glyph 3 0x110 16, glyph 3 0x111 17, glyph 3 0x114 20, glyph 3 0x116 22,
    glyph 15 0xE002 20] }

/-- A word of glyphs with these advances. -/
def word (advances : List Nat) : List TextChar := advances.map fun a => ⟨0x100 + a, 3⟩

/-- The 63 characters of the worked sequence of 3.7. -/
def text : List TextChar :=
  word [16, 16, 15, 15] ++ ⟨0x20, 3⟩ :: word [12, 11, 11, 11] ++ ⟨0x20, 3⟩ :: word [13, 13, 13, 13, 12, 12, 12] ++
    ⟨0x20, 3⟩ :: word [11, 10, 10, 10, 10] ++ ⟨0x20, 3⟩ :: word [14, 12, 14] ++ ⟨0x20, 3⟩ ::
    word [17, 17, 17, 17, 16, 16] ++ ⟨0x20, 3⟩ :: word [22, 22, 22, 22, 22] ++ ⟨0xAD, 3⟩ ::
    word [14, 14, 14, 14, 14, 14] ++ ⟨0x0A, 3⟩ :: word (List.replicate 15 20)

/-- The template of the worked sequence. -/
def template : Template := ⟨0, 1664, 0, 64, 302, 48, 36, 20, 24, 15⟩

/-- Its page before the compose. -/
def bare : State := { active with faces := font, setter := { active.setter with text := text, base := 1000, template := template } }

/-- Its compose. -/
def job : ComposeJob := ⟨.body, .justify, false, true, 0, 0, [], false⟩

/-- Its draft. -/
def draft : DraftEnd := job.finish font bare.setter

/-- COMPOSE is accepted (step 0 of the sequence), and refused for JUSTIFY of the HEAD (R41). -/
theorem test_compose :
    (after .compose (atLast .compose [1, 0, 0, 2, 0] 1 bare)).setter.job = some job ∧
    (after .compose (atLast .compose [0, 0, 0, 2, 0] 1 bare)).link.lastRefusal = ⟨0x12, 3⟩ := by decide +kernel

/-- Ranges, alignments, indents, flags and placement counts of the five lines. -/
theorem test_draft_lines :
    (draft.lines.map fun l => (l.docStart, l.docEnd, l.align, l.indent, l.placements.length)) =
      [(1000, 1024, .justify, 0, 23), (1024, 1041, .justify, 0, 17), (1041, 1048, .left, 0, 6),
        (1048, 1062, .left, 20, 14), (1062, 1063, .left, 0, 1)] ∧
    (draft.lines.map LineRecord.flags) =
      [.clear, { LineFlags.clear with hyphenated := true }, { LineFlags.clear with paraEnd := true },
        { LineFlags.clear with split := true }, .clear] ∧
    (draft.status, draft.nextStart, draft.nextPara) = (.textDone, 63, true) := by decide +kernel

/-- Pens and widths of line 1, and the hyphen of line 2. -/
theorem test_draft_pens :
    (draft.lines.head?.map fun l => l.placements.filterMap fun p =>
      if p.kind = .space then some (p.pen, p.width) else none) = some [(126, 19), (190, 19), (297, 18)] ∧
    ((draft.lines[1]?).bind fun l => l.placements.getLast?).map (fun p => (p.kind, p.offset, p.pen, p.width)) =
      some (.hyphen, 1040, 354, 12) := by decide +kernel

/-- The page after the compose. -/
def page : State := after .composeDone { bare with setter := { bare.setter with job := some job } }

/-- Compose done lists BODY 0 to 33 and sets the result (R44, R46). -/
theorem test_compose_done :
    page.renderer.list = (List.range 34).map (fun k => (k + 1, Cause.page)) ∧
    page.setter.result = ⟨.textDone, .body, 5, 63, true⟩ ∧ page.events.flags = 1 ∧
    ((page.lines.slot 5).record.docStart, (page.lines.slot 6).record.isSet) = (1062, false) := by decide +kernel

theorem test_compose_cancel :
    (after .composeCancel (atByte .composeCancel { bare with setter := { bare.setter with job := some job } })).setter.result =
      ⟨.cancelled, .body, 0, 0, false⟩ := by decide

theorem test_page_clear :
    ((after .pageClear (atLast .pageClear [] 1 { page with renderer := .initial })).renderer.list).map Prod.fst = [1, 2, 3, 4, 5] ∧
    (after .pageClear (atLast .pageClear [] 4 active)).link.lastRefusal = ⟨0x16, 3⟩ := by decide +kernel

/-- The replies of COMPOSE RESULT and LINE READ (11.7). -/
theorem test_compose_result :
    (after .composeResult { atByte .composeResult page with
      link := { (atByte .composeResult page).link with reply := .waiting } }).link.reply =
      .data [0xA5, 0, 1, 1, 5, 0, 63, 1] := by decide +kernel

theorem test_line_read :
    (match (after .lineRead { atLast .lineRead [1] 0 page with
        link := { (atLast .lineRead [1] 0 page).link with reply := .waiting } }).link.reply with
      | .data bs => bs.take 12
      | _ => []) = [0xA5, 1, 0, 1, 0, 0, 3, 0xE8, 0, 0, 4, 0] := by decide +kernel

/-! ### Face store: the worked sequence of chapter 2 -/

/-- The store with face 2 LOADING and these entries. -/
def store (entries : List Glyph) : State := { active with faces := { FaceStore.initial with
  faces := put FaceStore.initial.faces 2 ⟨.loading, 11, 0x2D, 0xFFFD⟩, directory := entries } }

/-- The entries after step 2. -/
def step2 : List Glyph :=
  [⟨2, 0x41, 0, 0, 0, 40, 52, some 0, 9⟩, ⟨2, 0x57, 0, 0, 0, 128, 160, some 9, 80⟩, ⟨2, 0x69, 0, 0, 0, 20, 30, some 89, 3⟩]

theorem test_face_open :
    (after .faceOpen (atLast .faceOpen [2, 11, 0, 0, 0x2D, 0, 0xFF] 0xFD active)).faces.face 2 =
      ⟨.loading, 11, 0x2D, 0xFFFD⟩ ∧
    (after .faceOpen (atLast .faceOpen [2, 11, 0, 0, 0x2D, 0, 0xFF] 0xFD (store []))).link.lastRefusal = ⟨0x20, 10⟩ := by
  decide

/-- Step 3: the new run of a replaced glyph is found while the old one is held, and frees it. -/
theorem test_glyph_put :
    let t := after .glyphPut (atLast .glyphPut [2, 0, 0, 0x41, 0, 0, 0, 48] 52 (store step2))
    (t.faces.entry 2 0x41).map Glyph.firstBlock = some (some 92) ∧ t.faces.freeBlocks = 8099 ∧
      t.faces.largestFreeRun = 8090 ∧ t.faces.receiving = some ⟨2, 0x41, 0⟩ := by decide +kernel

/-- Step 5: a glyph cut short leaves the directory, SHORT. -/
theorem test_short_glyph :
    let s := store (step2 ++ [⟨2, 0x6D, 0, 0, 0, 30, 30, some 92, 4⟩])
    let t := after (.csRising .arrival) (holding [.csRise] { s with
      link := { s.link with taking := .glyph }, faces := { s.faces with receiving := some ⟨2, 0x6D, 200⟩ } })
    t.faces.directory = step2 ∧ t.link.lastRefusal = ⟨0x21, 2⟩ := by decide +kernel

theorem test_glyph_bitmap_byte :
    let s := store [⟨2, 0x41, 0, 0, 0, 2, 2, some 5, 1⟩]
    let t := after .glyphBitmapByte (atParam .glyph 0xF4 { s with faces := { s.faces with receiving := some ⟨2, 0x41, 1⟩ } })
    t.faces.pool.read 641 = 0xF4 ∧ t.faces.receiving = none ∧ t.link.taking = .ignoring := by decide

theorem test_face_seal :
    ((after .faceSeal (atLast .faceSeal [] 2 (store step2))).faces.face 2).state = .ready ∧
    (after .faceSeal (atLast .faceSeal [] 3 (store step2))).link.lastRefusal = ⟨0x22, 10⟩ := by decide

/-- Step 8: IN_USE while a SET line places the face, and all its runs freed when it is retired. -/
theorem test_face_retire :
    (after .faceRetire (atLast .faceRetire [] 3 page)).link.lastRefusal = ⟨0x23, 5⟩ ∧
    (after .faceRetire (atLast .faceRetire [] 2 (store step2))).faces.freeBlocks = 8192 := by decide +kernel

theorem test_face_info :
    (after .faceInfo { atLast .faceInfo [] 2 (store step2) with
      link := { (atLast .faceInfo [] 2 (store step2)).link with reply := .waiting } }).link.reply =
      .data [0xA5, 1, 0, 3, 0, 92, 0x1F, 0xA4, 0x1F, 0xA4] := by decide +kernel

/-! ### Mark unit: the worked sequences of chapters 4 and 5 -/

/-- The page with nothing listed and these marks. -/
def marked (table : List Mark) : State := { page with
  renderer := .initial, marks := { MarkUnit.initial with table := table.map (Mark.onLines page.lines) } }

/-- The page with a request in service. -/
def serving (r : MarkRequest) (table : List Mark) : State :=
  { marked table with marks := { (marked table).marks with serving := some r } }

/-- Mark 7 of step 1. -/
def mark7 : Mark := ⟨7, 1010, 1020, .fill, 10, 0, none, false, true⟩

/-- Mark 3 of step 3. -/
def mark3 : Mark := ⟨3, 1040, 1050, .underline, 0, 1, some 5, false, true⟩

/-- Step 2: a request joins the queue or enters service; f fails its check; g finds 4 waiting. -/
theorem test_mark_add :
    (after .markAdd (atLast .markAdd [0, 7, 0, 0, 3, 0xF2, 0, 0, 3, 0xFC, 0, 10, 0] 0 active)).marks.serving =
      some (.add 7 1010 1020 .fill 10 0 none) ∧
    (after .markAdd (atLast .markAdd [0, 12, 0, 0, 11, 0xB8, 0, 0, 11, 0xB8, 0, 10, 0] 0 active)).link.lastRefusal = ⟨0x30, 3⟩ := by
  decide

theorem test_mark_clear :
    (after .markClear (atByte .markClear { active with marks :=
      ⟨[], [.next, .next, .next, .next], some .next, .blank, none⟩ })).link.lastRefusal = ⟨0x35, 4⟩ := by decide

theorem test_mark_requests :
    (after .markRange (atLast .markRange [0, 7, 0, 0, 4, 0x1A, 0, 0, 4] 0x1F active)).marks.serving = some (.range 7 1050 1055) ∧
    (after .markStyle (atLast .markStyle [0, 7, 0, 10, 0, 0] 1 active)).marks.serving = some (.restyle 7 .fill 10 0 none true) ∧
    (after .markRetire (atLast .markRetire [0] 9 active)).marks.serving = some (.retire 9) ∧
    (after .markSweep (atLast .markSweep [0, 0, 3, 0xE8, 0, 0, 4] 0x24 active)).marks.serving = some (.sweep 1000 1060) := by decide

theorem test_query_requests :
    (after .markGet (atLast .markGet [0] 9 active)).marks.serving = some (.get 9) ∧
    (after .markAt (atLast .markAt [0x0B, 0xB8, 0x0B] 0xB8 active)).marks.serving = some (.at 1247 1663) ∧
    (after .markScan (atLast .markScan [0, 0, 0, 5, 0, 0, 0] 5 active)).link.lastRefusal = ⟨0x3A, 3⟩ ∧
    (after .scanNext (atByte .scanNext active)).marks.serving = some .next := by decide

/-- Step 3 lists BODY 1, 2 and 3; step 4 lists BODY 0 and 3 alone and moves the record. -/
theorem test_service_of_add_and_range :
    let a := after .serviceDone (serving (.add 3 1040 1050 .underline 0 1 (some 5)) [mark7])
    let b := after .serviceDone (serving (.range 7 1050 1055) [mark7, mark3])
    a.renderer.list = [(2, .mark), (3, .mark), (4, .mark)] ∧ a.marks.table = [mark7, mark3] ∧
      b.renderer.list = [(1, .mark), (4, .mark)] ∧ b.marks.table.map Mark.id = [3, 7] := by decide +kernel

/-- Step 5 refuses at service; step 7 sweeps both. -/
theorem test_service_of_retire_and_sweep :
    let c := after .serviceDone (serving (.retire 9) [mark7, mark3])
    let g := after .serviceDone (serving (.sweep 1000 1060) [mark3, { mark7 with start := 1050, stop := 1055 }])
    c.link.lastRefusal = ⟨0x33, 6⟩ ∧ g.marks.table = [] ∧ g.marks.answer = ⟨.sweep, .found, 2, [], false⟩ ∧
      g.renderer.list = [(2, .mark), (3, .mark), (4, .mark)] ∧ g.raised .answerLost = false := by decide +kernel

/-- The five marks of the hit tests. -/
def hitMarks : List Mark :=
  [⟨9, 990, 1004, .fill, 0, 2, some 4, false, true⟩, ⟨15, 1000, 1024, .box, 0, 1, none, false, true⟩,
    ⟨12, 1004, 1017, .underline, 0, 1, some 2, false, true⟩, ⟨7, 1005, 1009, .fill, 0, 0, none, false, true⟩,
    ⟨21, 1009, 1011, .fill, 0, 3, none, true, true⟩]

/-- Steps 1 to 6 of the hit tests. -/
theorem test_hits :
    [(150, 20), (380, 5), (100, 40), (195, 30), (150, 200), (1247, 1663)].map
      (fun p => ((marked hitMarks).hits p.1 p.2).map Mark.id) =
      [[15, 12, 7], [12], [9, 15], [15, 12], [], []] := by decide +kernel

theorem test_answer_read :
    let s := serving (.get 7) [mark7]
    let t := atByte .answerRead (after .serviceDone s)
    (after .answerRead { t with link := { t.link with reply := .waiting } }).link.reply =
      .data [0xA5, 1, 1, 0, 1, 1, 0, 7, 0, 0, 3, 0xF2, 0, 0, 3, 0xFC, 0, 10, 0, 0, 2] ∧
    (after .answerRead t).marks.answer.read = true := by decide +kernel

/-! ### Renderer: the worked sequence and tables of chapter 6 -/

/-- The check value of R97. -/
theorem test_crc : crc16 [0x31, 0x32, 0x33, 0x34, 0x35, 0x36, 0x37, 0x38, 0x39] = 0x29B1 := by decide +kernel

/-- The table of R101. -/
theorem test_under_ink :
    [underInk 15 8, underInk 9 8, underInk 10 8, underInk 15 4, underInk 12 15] = [7, 4, 5, 11, 0] := by decide

/-- Steps 1 and 2: 162 bytes without the mark, 168 with it, and the segment from 209 to 296. -/
theorem test_render_start :
    ((marked []).describe 1).length = 162 ∧ ((marked [mark7]).describe 1).length = 168 ∧
    ((marked [{ mark7 with stop := 1017 }]).describe 1).segments = [⟨.fill, 10, 209, 296⟩] ∧
    (after .renderStart page).renderer.job.map RenderJob.slot = some 1 := by decide +kernel

/-- A line whose description is unchanged is skipped, and the last skip raises RENDER_IDLE. -/
theorem test_unchanged_line :
    let s : State := { active with renderer := ⟨[(0, .page)], none⟩, lines := put active.lines 0 ⟨.blank, some 0xFFFF, some 0⟩ }
    (after .renderStart s).renderer = ⟨[], none⟩ ∧ (after .renderStart s).events.flags = 2 := by decide +kernel

/-- The underline stands on rows baseline + 2 and baseline + 3 (R102). -/
theorem test_segment_rows :
    [37, 38, 39, 40].map (fun y => (⟨.underline, 0, 209, 296⟩ : Segment).rules template 0 250 y) = [false, true, true, false] := by
  decide

/-- The last pixel of a box: the request of the line box in the mark auto-mode (R103). -/
def lastPixel : State := { active with renderer := ⟨[], some ⟨1, .mark, .blank, 59903⟩⟩ }

theorem test_render_done :
    let t := after .renderDone lastPixel
    t.sched.queue = [⟨⟨0, 0, 1247, 47⟩, .fast, .render, false⟩] ∧ t.raised .renderIdle = true ∧
      (t.lines.slot 1).signature = some 0xFFFF ∧ t.renderer.job = none := by decide +kernel

/-- With both clients waiting the arbiter takes them in turn (R4). -/
theorem test_arbiter_write_grant :
    let s : State := { lastPixel with
      renderer := ⟨[], some ⟨1, .mark, .blank, 0⟩⟩
      port := ⟨⟨0, 0, 3, 0⟩, none, 0, .filling 5 4⟩ }
    let t := after .arbiterWriteGrant s
    let u := after .arbiterWriteGrant t
    (t.image.target.level 0 0, t.port.position) = (15, 0) ∧ (u.image.target.level 0 0, u.port.position) = (5, 1) := by decide +kernel

/-! ### Image port: the worked sequence of chapter 7 -/

/-- The window of step 1. -/
def window : State := { active with port := ⟨⟨1200, 100, 1203, 102⟩, some .fast, 0, .idle⟩ }

theorem test_image_window :
    (after .imageWindow (atLast .imageWindow [4, 0xB0, 0, 100, 4, 0xB3, 0, 102] 1 active)).port = window.port ∧
    (after .imageWindow (atLast .imageWindow [5, 0x14, 0, 0, 5, 0x78, 0, 0] 1 active)).link.lastRefusal = ⟨0x40, 3⟩ := by decide

theorem test_image_write :
    (after .imageWrite (atByte .imageWrite window)).port.state = .writing ∧
    (after .imageWrite (atByte .imageWrite window)).link.taking = .image := by decide

/-- Step 2: byte 0x56 carries indices 4 and 5. -/
theorem test_image_write_byte :
    let t := after .imageWriteByte (atParam .image 0x56 { window with port := { window.port with position := 4 } })
    (t.image.target.level 1200 101, t.image.target.level 1201 101, t.port.position) = (5, 6, 6) := by decide +kernel

/-- Step 3: a fill past the window's end writes indices 10 and 11 alone and posts the window's request. -/
theorem test_image_fill :
    let s := after .imageFill (atLast .imageFill [0, 0, 0] 5 { window with port := { window.port with position := 10 } })
    let t := after .fillComplete s
    s.port.state = .filling 0 2 ∧ t.port.position = 12 ∧ t.port.state = .idle ∧ t.image.target.level 1203 102 = 0 ∧
      t.sched.queue = [⟨⟨1200, 100, 1203, 102⟩, .fast, .window, false⟩] := by decide +kernel

/-- Step 4: two pixels a byte. -/
theorem test_image_read :
    let s : State := { window with image := { window.image with target := Plane.setPixel (Plane.setPixel [] 1200 100 1) 1201 100 2 } }
    s.windowByte .target 0 = 0x12 ∧ s.windowByte .target 5 = 0xFF ∧
    (after .imageRead { atLast .imageRead [] 0 s with link := { (atLast .imageRead [] 0 s).link with reply := .waiting } }).link.reply =
      .image false .target 0 := by decide +kernel

/-! ### Update scheduler: the worked sequence of chapter 8 -/

/-- Supply ON, 22 °C in band 4, every table of band 4 READY with 3 frames, panel known. -/
def running : State := { active with
  drive := { active.drive with
    tables := mapPlaces (fun i _ => if i % 8 = 4 then Wave.ready 3 [] else .absent) active.drive.tables
    reading := some 22, firstReading := false, band := 4, age := .running }
  supply := { active.supply with state := .on, pgood := true }
  sched := { active.sched with panelKnown := true } }

/-- A request of the renderer in FAST. -/
def lineRequest (y0 y1 : Nat) : Request := ⟨⟨0, y0, 1247, y1⟩, .fast, .render, false⟩

/-- Steps 1 to 3: a starts in slot 1, b waits, and c merges into b. -/
theorem test_merge :
    let t := ((running.post (lineRequest 144 191)).post (lineRequest 144 191)).post (lineRequest 192 239)
    t.sched.queue = [lineRequest 144 239] ∧
      t.sched.slot 0 = some ⟨⟨0, 144, 1247, 191⟩, .fast, 4, 3, 0, true⟩ ∧ t.drive.frame = some 12 := by decide +kernel

/-- Step 6: the promotion widens b to zones 0 and 1, which meets slot 2, so b stays pending, CLEAN and promoted. -/
theorem test_promotion_blocked :
    let s : State := { running with sched := { running.sched with
      ghost := put (put running.sched.ghost 0 40) 1 12
      slots := put running.sched.slots 1 (some ⟨⟨1000, 300, 1100, 400⟩, .gray, 4, 3, 1, true⟩)
      queue := [lineRequest 144 239] } }
    s.scan.sched.queue = [⟨⟨0, 0, 1247, 415⟩, .clean, .render, true⟩] ∧ s.scan.sched.slot 0 = none := by decide +kernel

/-- A full queue squeezes the request into its youngest entry (R119). -/
theorem test_squeeze :
    let full : State := { active with sched := { active.sched with
      queue := (List.range 16).map fun k => ⟨⟨0, 100 * k, 0, 100 * k⟩, .gray, .window, false⟩ } }
    let t := full.post ⟨⟨700, 50, 700, 50⟩, .clean, .explicit, false⟩
    t.sched.queue.length = 16 ∧ t.sched.queue.getLast? = some ⟨⟨0, 50, 700, 1500⟩, .clean, .explicit, false⟩ ∧
      t.raised .queueSqueeze = true := by decide +kernel

/-- A rectangle beyond the panel is clamped to column 1247 (R138). -/
theorem test_refresh :
    (after .refresh (atLast .refresh [5, 0x14, 0, 0, 5, 0x78, 0, 9] 2 active)).sched.queue =
      [⟨⟨1247, 0, 1247, 9⟩, .gray, .explicit, false⟩] ∧
    (after .refresh (atLast .refresh [5, 0x14, 0, 0, 5, 0x13, 0, 9] 2 active)).link.lastRefusal = ⟨0x50, 3⟩ := by decide

theorem test_display :
    (after .displayInvert (atByte .displayInvert active)).sched.queue = [⟨.panel, .clean, .explicit, false⟩] ∧
    (after .displayNormal (atByte .displayNormal active)).sched.queue = [] := by decide

/-- BLANK ON removes RENDER and WINDOW entries; BLANK OFF asks for the full panel in GRAY (R137). -/
theorem test_blank :
    let s : State := { active with sched := { active.sched with
      queue := [lineRequest 0 9, ⟨⟨0, 0, 9, 9⟩, .gray, .tidy, false⟩] } }
    (after .blankOn (atByte .blankOn s)).sched.queue =
      [⟨⟨0, 0, 9, 9⟩, .gray, .tidy, false⟩, ⟨.panel, .clean, .explicit, false⟩] ∧
    (after .blankOff (atByte .blankOff { active with sched := { active.sched with blank := true } })).sched.queue =
      [⟨.panel, .gray, .explicit, false⟩] := by decide

theorem test_sched_set :
    (after .schedSet (atLast .schedSet [3, 2, 0, 5] 1 active)).sched.settings = ⟨.clean, .gray, 0, 5, true⟩ ∧
    (after .schedSet (atLast .schedSet [0, 2, 0, 5] 1 active)).link.lastRefusal = ⟨0x55, 3⟩ := by decide

/-- Two slots of one frame timer (9.4): slot 2 was waiting at the frame end of time 12. -/
theorem test_frame_end :
    let s : State := { running with
      drive := { running.drive with frame := some 12, period := 20 }
      sched := { running.sched with
        slots := put (put running.sched.slots 0 (some ⟨⟨0, 0, 0, 0⟩, .gray, 4, 3, 0, true⟩)) 1
          (some ⟨⟨9, 9, 9, 9⟩, .fast, 4, 2, 0, false⟩) } }
    let t := after .frameEnd s
    let u := after .frameEnd t
    let v := after .frameEnd u
    (t.sched.slot 0).map Driving.count = some 1 ∧ (t.sched.slot 1).map Driving.count = some 0 ∧ t.drive.frame = some 20 ∧
      (u.sched.slot 1).map Driving.count = some 1 ∧ v.sched.anyDriving = false ∧ v.drive.frame = none ∧
      v.sched.settle = some 30 ∧ look v.sched.ghost 0 0 = 5 ∧ look v.sched.coarse 0 false = true := by decide +kernel

/-- The pair from 15 to 4 lies in byte 61 of its frame, in the two highest bits (9.2). -/
theorem test_wave_code : (Wave.ready 1 (List.replicate 61 0 ++ [0x80])).code 0 15 4 = 2 := by decide +kernel

/-- Step 9: the settle timer expires, quiet is reported and the idle timer starts (R135, R163). -/
theorem test_settle_timer_expiry :
    let t := after .settleTimerExpiry { running with sched := { running.sched with settle := some 30 } }
    t.raised .panelQuiet = true ∧ t.supply.idle = some 1000 ∧ t.sched.queue = [] := by decide +kernel

/-- Tidy requests of held zones 2, 3 and 4 make one entry (R135). -/
theorem test_tidy :
    let s : State := { active with sched := { active.sched with
      settle := some 30, coarse := put (put (put active.sched.coarse 2 true) 3 true) 4 true } }
    (after .settleTimerExpiry s).sched.queue = [⟨⟨0, 416, 1247, 1039⟩, .gray, .tidy, false⟩] := by decide +kernel

/-! ### Panel drive: the worked sequence of 9.3 -/

theorem test_wave_load :
    let t := after .waveLoad (atLast .waveLoad [1, 4] 2 active)
    t.drive.table .gray 4 = .loading 2 [] ∧ t.link.taking = .wave .gray 4 ∧
    (after .waveLoad (atLast .waveLoad [1, 8] 2 active)).link.lastRefusal = ⟨0x60, 3⟩ := by decide +kernel

theorem test_wave_frame_byte :
    let s : State := { active with drive := { active.drive with
      tables := put active.drive.tables 12 (.loading 1 (List.replicate 63 0)) } }
    let t := after .waveFrameByte (atParam (.wave .gray 4) 0x1B s)
    t.drive.table .gray 4 = .ready 1 (List.replicate 63 0 ++ [0x1B]) ∧ t.link.taking = .ignoring := by decide +kernel

/-- The bands of steps 1 to 8. -/
theorem test_temp_set :
    ([22, 19, 17, 14, 12, 21, 55, 127].foldl (fun (acc : State × List (Nat × Bool)) (t : Byte) =>
        let u := after .tempSet (atLast .tempSet [] t acc.1)
        (u, acc.2 ++ [(u.drive.band, u.drive.usable)])) (active, [])).2 =
      [(4, true), (4, true), (3, true), (3, true), (2, true), (4, true), (7, false), (7, false)] := by decide +kernel

theorem test_bands_set :
    let s := after .tempSet (atLast .tempSet [] 55 active)
    let t := after .bandsSet (atLast .bandsSet [5, 10, 15, 20, 25, 30, 40, 2, 0] 70 s)
    t.drive.usable = true ∧ t.drive.band = 7 ∧
    (after .bandsSet (atLast .bandsSet [5, 10, 15, 20, 25, 25, 40, 2, 0] 70 s)).link.lastRefusal = ⟨0x61, 3⟩ := by decide +kernel

theorem test_age_timer_expiry :
    (after .ageTimerExpiry running).raised .tempStale = true ∧
    (after .ageTimerExpiry (after .ageTimerExpiry running)).drive.age = .notRunning := by decide +kernel

theorem test_drive_set :
    [7, 8, 20, 26].map (fun b => (after .driveSet (atLast .driveSet [] b active)).drive.period) = [8, 8, 20, 25] := by decide

/-! ### Supply: the worked sequence of 10.2 -/

/-- Slots 2, 3 and 5 drive; p and q wait. -/
def driving : State := { running with
  drive := { running.drive with frame := some 12 }
  sched := { running.sched with
    slots := put (put (put running.sched.slots 1 (some ⟨⟨0, 144, 1247, 191⟩, .fast, 4, 3, 1, true⟩)) 2
      (some ⟨⟨0, 480, 1247, 527⟩, .gray, 4, 3, 1, true⟩)) 4 (some ⟨⟨900, 1300, 1100, 1400⟩, .gray, 4, 3, 1, true⟩)
    queue := [⟨⟨0, 480, 1247, 575⟩, .gray, .render, false⟩, ⟨⟨950, 1350, 1000, 1380⟩, .fast, .window, false⟩] } }

/-- Step 1: a glitch. Step 2: the fault and its three repairs ahead of p and q. -/
theorem test_power_good_drop :
    let g := after .pgoodRise (after .pgoodFall driving)
    let f := after .filterTimerExpiry (after .pgoodFall driving)
    (after .pgoodFall driving).supply.filter = some 2 ∧ g.supply = driving.supply ∧ f.supply.state = .fault ∧
      f.sched.queue.map Request.origin = [.repair, .repair, .repair, .render, .window] ∧
      f.sched.queue.map (fun e => e.rect.y0) = [144, 480, 1300, 480, 1350] ∧ f.sched.anyDriving = false ∧
      f.drive.frame = none ∧ f.raised .supplyFault = true ∧ f.raised .refreshDone = false := by decide +kernel

/-- Steps 4 and 5: SUPPLY CLEAR asks for power again; ON starts the repairs in slots 1, 2 and 3. -/
theorem test_supply_clear :
    let f := after .filterTimerExpiry (after .pgoodFall driving)
    let c := after .supplyClear (atByte .supplyClear f)
    let o := after .filterTimerExpiry (after .pgoodRise c)
    (c.supply.state, c.supply.powerUp) = (.rising, some 40) ∧ o.supply.state = .on ∧ o.supply.powerUp = none ∧
      (List.range 4).map (fun i => (o.sched.slot i).map fun d => (d.rect.y0, d.mode)) =
        [some (144, .clean), some (480, .clean), some (1300, .clean), none] ∧
      o.sched.queue.length = 2 := by decide +kernel

/-- A REPAIR into a full queue makes one of the two youngest entries, the stronger of them in mode (R120). -/
theorem test_repair_into_a_full_queue :
    let full : State := { active with sched := { active.sched with
      queue := (List.range 16).map fun k => ⟨⟨0, 100 * k, 9, 100 * k⟩, if k = 14 then .clean else .gray,
        if k = 15 then .explicit else .window, k == 14⟩ } }
    let t := full.insertRepair 0 ⟨⟨0, 5, 0, 5⟩, .clean, .repair, false⟩
    t.sched.queue.length = 16 ∧ t.sched.queue.head? = some ⟨⟨0, 5, 0, 5⟩, .clean, .repair, false⟩ ∧
      t.sched.queue.getLast? = some ⟨⟨0, 1400, 9, 1500⟩, .clean, .explicit, true⟩ ∧ t.raised .queueSqueeze = true := by
  decide +kernel

theorem test_power_up_timer_expiry :
    (after .powerUpTimerExpiry { active with supply := { active.supply with state := .rising, powerUp := some 40 } }).supply.state =
      .fault := by decide

theorem test_idle_timer_expiry :
    (after .idleTimerExpiry { running with supply := { running.supply with idle := some 1000, filter := some 2 } }).supply =
      { running.supply with state := .off } := by decide

theorem test_supply_set :
    (after .supplySet (atLast .supplySet [0, 16] 0 active)).supply.settings = ⟨1, 15, 0⟩ := by decide

/-! ### States that keep the laws -/

/-- Two DRIVING slots never meet. -/
def slotsApart (s : State) : Bool :=
  (List.range 8).all fun i => (List.range 8).all fun j =>
    i == j || match s.sched.slot i, s.sched.slot j with
      | some d, some e => !d.rect.intersects e.rect
      | _, _ => true

theorem scheduler_sound (s : State) (h1 : s.sched.queue.length ≤ 16) (h2 : slotsApart s = true) : s.SchedulerSound := by
  refine ⟨h1, fun i j d e hi hj hij hd he x y hxy => ?_⟩
  have h := List.all_eq_true.1 (List.all_eq_true.1 h2 i (List.mem_range.2 hi)) j (List.mem_range.2 hj)
  rw [hd, he] at h
  simp only [Bool.false_or, beq_eq_false_iff_ne.2 hij, Bool.not_eq_true'] at h
  simp only [Rect.intersects, Rect.holds, Bool.and_eq_true, decide_eq_true_eq, Bool.and_eq_false_iff,
    decide_eq_false_iff_not] at h hxy
  omega

/-- The rectangle lies on the panel. -/
def onPanel (r : Rect) : Bool := r.x0 ≤ r.x1 && r.x1 ≤ 1247 && r.y0 ≤ r.y1 && r.y1 ≤ 1663

theorem on_panel (r : Rect) (h : onPanel r = true) : r.onPanel := by
  simp only [onPanel, Bool.and_eq_true, decide_eq_true_eq] at h
  exact ⟨h.1.1.1, h.1.1.2, h.1.2, h.2⟩

theorem rects_on_panel (s : State) (h1 : (s.sched.queue.all fun e => onPanel e.rect) = true)
    (h2 : ((List.range 8).all fun i => (s.sched.slot i).all fun d => onPanel d.rect) = true)
    (h3 : onPanel s.port.window = true) (h4 : s.setter.template.legal = true) : s.RectsOnPanel := by
  refine ⟨fun e he => on_panel _ (List.all_eq_true.1 h1 e he), fun i d hd => ?_, on_panel _ h3, h4⟩
  rcases Nat.lt_or_ge i 8 with hi | hi
  · have h := List.all_eq_true.1 h2 i (List.mem_range.2 hi)
    rw [hd] at h
    exact on_panel _ h
  · simp only [Scheduler.slot, look_of_ge _ i _ hi] at hd
    cases hd

theorem lines_sound (s : State) (h1 : s.setter.template.legal = true)
    (h2 : ((List.range 210).all fun k => !(s.lines.slot k).record.isSet ||
      ((s.setter.template.boxTop k).isSome &&
        decide ((s.lines.slot k).record.docStart < (s.lines.slot k).record.docEnd) &&
        decide ((s.lines.slot k).record.placements.length ≤ 255))) = true)
    (h3 : (s.renderer.list.all fun e => (s.setter.template.boxTop e.1).isSome) = true)
    (h4 : (s.renderer.job.all fun j => (s.setter.template.boxTop j.slot).isSome &&
      decide (j.written < 1248 * s.setter.template.pitch)) = true)
    (h5 : s.setter.job = none) : s.LinesSound := by
  refine ⟨h1, fun k hk => ?_, fun e he => List.all_eq_true.1 h3 e he, fun j hj => ?_, fun j hj => ?_⟩
  · rcases Nat.lt_or_ge k 210 with h | h
    · have := List.all_eq_true.1 h2 k (List.mem_range.2 h)
      simp only [hk, Bool.not_true, Bool.false_or, Bool.and_eq_true, decide_eq_true_eq] at this
      exact ⟨this.1.1, this.1.2, this.2⟩
    · simp [LineTable.slot, look_of_ge _ k _ h, LineSlot.blank, LineRecord.blank] at hk
  · rw [hj] at h4
    simp only [Option.all_some, Bool.and_eq_true, decide_eq_true_eq] at h4
    exact h4
  · rw [h5] at hj
    cases hj

theorem marks_sound (s : State) (h1 : s.marks.table.Pairwise fun a b => a.before b = true)
    (h2 : (s.marks.table.map Mark.id).Nodup) (h3 : s.marks.table.length ≤ 512)
    (h4 : (s.marks.table.all fun m => 1 ≤ m.id && m.id ≤ 65535 && m.start < m.stop && m.stop - m.start ≤ 65535 &&
      m.layer ≤ 3 && m.tag.all fun n => 1 ≤ n && n ≤ 255) = true) (h5 : s.marks.queue = [])
    (h6 : ∀ r, s.marks.serving = some r → r.InRange) : s.MarksSound := by
  refine ⟨h1, h2, h3, fun m hm => ?_, by simp [h5], by simp [h5], h6, fun _ => h5⟩
  have h := List.all_eq_true.1 h4 m hm
  simp only [Bool.and_eq_true, decide_eq_true_eq] at h
  refine ⟨h.1.1.1.1.1, h.1.1.1.1.2, h.1.1.1.2, h.1.1.2, h.1.2, fun n hn => ?_⟩
  have := h.2
  rw [hn] at this
  simpa using this

theorem driving_laws : driving.Canonical ∧ driving.SchedulerSound ∧ driving.RectsOnPanel :=
  ⟨⟨rfl, rfl, rfl, rfl, rfl⟩, scheduler_sound _ (by decide) (by decide +kernel),
    rects_on_panel _ (by decide +kernel) (by decide +kernel) (by decide) (by decide)⟩

theorem page_lines : page.LinesSound :=
  lines_sound _ (by decide +kernel) (by decide +kernel) (by decide +kernel) (by decide +kernel) (by decide +kernel)

theorem hit_page_laws : (marked hitMarks).LinesSound ∧ (marked hitMarks).MarksSound :=
  ⟨lines_sound _ (by decide +kernel) (by decide +kernel) (by decide +kernel) (by decide +kernel) (by decide +kernel),
    marks_sound _ (by decide +kernel) (by decide +kernel) (by decide +kernel) (by decide +kernel) (by decide +kernel)
      (by intro r h; cases h)⟩

/-- A box of which one pixel is left, with a fill of the window's last pixel waiting. -/
def lastWrites : State := { lastPixel with
  port := ⟨⟨1244, 1663, 1247, 1663⟩, some .fast, 3, .filling 5 1⟩ }

/-- The same, with the turn of the port. -/
def portsTurn : State := { lastWrites with image := { lastWrites.image with turn := .port } }

/-- The same with a write stream in place of the fill: its byte 0x12 fills the window's last pixel. -/
def streaming : State := { atParam .image 0x12 lastWrites with port := ⟨⟨1244, 1663, 1247, 1663⟩, some .fast, 3, .writing⟩ }

theorem last_writes_laws :
    lastWrites.Canonical ∧ lastWrites.RectsOnPanel ∧ lastWrites.LinesSound ∧ lastWrites.PortSound :=
  ⟨⟨rfl, rfl, rfl, rfl, rfl⟩, rects_on_panel _ (by decide) (by decide +kernel) (by decide) (by decide),
    lines_sound _ (by decide) (by decide +kernel) (by decide) (by decide) rfl,
    ⟨by decide, by
      intro v left h
      have : v = 5 ∧ left = 1 := by
        simp only [lastWrites, PortState.filling.injEq] at h
        exact ⟨h.1.symm, h.2.symm⟩
      obtain ⟨rfl, rfl⟩ := this
      decide⟩⟩

theorem faces_sound (s : State) (h1 : s.faces.directory.length ≤ 4096)
    (h2 : s.faces.directory.Pairwise fun g h => g.face < h.face ∨ (g.face = h.face ∧ g.code < h.code))
    (h3 : s.faces.directory.Pairwise fun g h => (match g.firstBlock, h.firstBlock with
      | some a, some b => decide (a + g.blockCount ≤ b ∨ b + h.blockCount ≤ a)
      | _, _ => true) = true)
    (h4 : (s.faces.directory.all fun g => decide (g.face ≤ 15) && decide (g.blockCount = bitmapBlocks g.width g.height) &&
      decide (g.firstBlock = none ↔ g.blockCount = 0) && (g.firstBlock.all fun a => decide (a + g.blockCount ≤ 8192)) &&
      decide ((s.faces.face g.face).state ≠ .empty)) = true)
    (h5 : s.faces.receiving = none ↔ s.link.taking ≠ .glyph)
    (h6 : ∀ r, s.faces.receiving = some r → ∃ g ∈ s.faces.directory, g.face = r.face ∧ g.code = r.code ∧
      r.got < bitmapBytes g.width g.height ∧ (s.faces.face r.face).state = .loading) : s.FacesSound := by
  refine ⟨h1, h2, h3.imp ?_, fun g hg => ?_, fun g hg => ?_, h5, h6⟩
  · intro g h hh a b ha hb
    rw [ha, hb] at hh
    simpa using hh
  · have h := List.all_eq_true.1 h4 g hg
    simp only [Bool.and_eq_true, decide_eq_true_eq] at h
    refine ⟨h.1.1.1.1, h.1.1.1.2, h.1.1.2, fun a ha => ?_⟩
    have := h.1.2
    rw [ha] at this
    simpa using this
  · have h := List.all_eq_true.1 h4 g hg
    simp only [Bool.and_eq_true, decide_eq_true_eq] at h
    exact h.2

theorem store_faces : (store step2).FacesSound :=
  faces_sound _ (by decide) (by decide) (by decide) (by decide +kernel) ⟨fun _ => by decide, fun _ => rfl⟩
    (by intro r h; cases h)

theorem page_faces : page.FacesSound ∧ page.Canonical :=
  ⟨faces_sound _ (by decide +kernel) (by decide +kernel) (by decide +kernel) (by decide +kernel)
    ⟨fun _ => by decide +kernel, fun _ => by decide +kernel⟩ (by intro r h; cases h),
    ⟨rfl, rfl, rfl, rfl, rfl⟩⟩

theorem sleeping_sound : sleeping.SleepSound :=
  ⟨by decide, fun _ => ⟨by decide +kernel, rfl, rfl, rfl, rfl, rfl, by decide, .inl rfl⟩⟩

/-! ### For every statement with hypotheses, what meets them -/

/-- The part with a link that frames `f`, expects the reply `r` and holds `n` bytes. -/
def framed (f : Framing) (r : Reply) (n : Nat) : State := { active with
  link := { active.link with fifo := List.replicate n (.byte .parameter 0), framing := f, reply := r } }

theorem framed_bytes (f : Framing) (r : Reply) (n : Nat) : (framed f r n).link.bytes = n ∧
    (framed f r n).link.framing = f ∧ (framed f r n).link.reply = r ∧ (framed f r n).power.startUp = false := by
  refine ⟨?_, rfl, rfl, rfl⟩
  show (List.filter FifoItem.isByte (List.replicate n (.byte .parameter 0))).length = n
  rw [List.filter_eq_self.2 (by intro a ha; rw [List.eq_of_mem_replicate ha]; rfl), List.length_replicate]

/-- The part with `t` being taken and `items` in the FIFO. -/
def taking (t : Taking) (items : List FifoItem) (s : State) : State :=
  { s with link := { s.link with taking := t, fifo := items } }

theorem witness_StepRunsFrontCommand :
    ({ active with pending := [.wake, .sleep] } : State).pending = .wake :: [.sleep] ∧ active.pending = [] := ⟨rfl, rfl⟩

theorem witness_CommandByteIsFramed :
    (framed .nothing .nothing 255).link.bytes < 256 ∧ 256 ≤ (framed .nothing .nothing 256).link.bytes ∧
    active.power.startUp = false ∧ (0x11 : Byte) ≠ Cmd.reset.code ∧ Cmd.ofCode 0x00 = none ∧
    Cmd.ofCode 0x11 = some .textLoad ∧ Cmd.kind .textLoad = .stream ∧
    Cmd.ofCode 0x50 = some .refresh ∧ Cmd.kind .refresh ≠ .stream ∧ 0 < Cmd.params .refresh ∧
    Cmd.ofCode 0x02 = some .idRead ∧ Cmd.kind .idRead = .read ∧ Cmd.params .idRead = 0 ∧
    Cmd.ofCode 0x05 = some .sleep ∧ Cmd.kind .sleep = .write ∧ Cmd.params .sleep = 0 := by
  rw [(framed_bytes ..).1, (framed_bytes ..).1]
  decide

theorem witness_ParameterByteIsFramed :
    (framed .nothing .nothing 0).link.framing = .nothing ∧
    (framed (.fixed .refresh 2) .nothing 255).link.framing = .fixed .refresh 2 ∧
    (framed (.fixed .refresh 2) .nothing 255).link.bytes < 256 ∧
    (framed (.fixed .imageRead 1) .waiting 255).link.framing = .fixed .imageRead 1 ∧
    (framed (.stream .textLoad) .nothing 255).link.framing = .stream .textLoad ∧
    256 ≤ (framed (.stream .textLoad) .nothing 256).link.bytes ∧ (framed .spent .nothing 256).link.framing = .spent ∧
    (framed .spent .nothing 256).power.startUp = false := by
  rw [(framed_bytes ..).1, (framed_bytes ..).1]
  exact ⟨rfl, rfl, by decide, rfl, rfl, by decide, rfl, rfl⟩

/-- A read's reply positions stand behind `items`. -/
def reading (t : Taking) (items : List FifoItem) : State := taking t items (framed .reply .waiting 0)

theorem no_byte_ahead (u : Byte) (a b : List FifoItem) (v : Byte)
    (h : [FifoItem.byte .command u] = a ++ .byte .command v :: b) : ∀ i ∈ a, ∀ k x, i ≠ FifoItem.byte k x := by
  cases a with
  | nil => simp
  | cons i a =>
    simp only [List.cons_append, List.cons.injEq] at h
    exact absurd h.2 (by simp)

theorem witness_ReplyPositionsShiftOutTheReply :
    (∀ r, (framed .reply r 0).link.framing = .reply ∧ (framed .reply r 0).link.reply = r) ∧
    2 * 5 < window.port.size ∧ window.port.size ≤ 2 * 6 ∧
    (∀ t is, (reading t is).link.framing = .reply ∧ (reading t is).link.reply = .waiting ∧
      (reading t is).link.fifo = is ∧ (reading t is).link.taking = t) ∧
    (∀ (u v : Byte) (a b : List FifoItem), [FifoItem.byte .command u] = a ++ .byte .command v :: b →
      ∀ i ∈ a, ∀ k x, i ≠ FifoItem.byte k x) ∧
    exec .idRead (reading .nothing [.byte .command Cmd.idRead.code]) =
      .next (after .idRead (reading .nothing [.byte .command Cmd.idRead.code])) ∧
    exec .lineRead (reading (.params .lineRead [1]) [.byte .parameter 0]) =
      .next (after .lineRead (reading (.params .lineRead [1]) [.byte .parameter 0])) ∧
    exec (.csRising .arrival) (reading .image [.csRise]) = .next (after (.csRising .arrival) (reading .image [.csRise])) ∧
    exec .droppedCommandPlace (reading .image [.dropped 0x13]) =
      .next (after .droppedCommandPlace (reading .image [.dropped 0x13])) :=
  ⟨fun _ => ⟨rfl, rfl⟩, by decide, by decide, fun _ _ => ⟨rfl, rfl, rfl, rfl⟩, fun u v a b => no_byte_ahead u a b v,
    rfl, rfl, rfl, rfl⟩

theorem witness_StartUpTakesNoBytes : State.reset.power.startUp = true := rfl

theorem witness_EndOfCommandOrStream :
    (∀ t, (taking t [.csRise] active).link.taking = t) ∧ active.faces.receiving = none ∧
    ({ active with faces := { active.faces with receiving := some ⟨2, 0x41, 0⟩ } } : State).faces.receiving =
      some ⟨2, 0x41, 0⟩ ∧ active.port.mode = none ∧ window.port.mode = some .fast := ⟨fun _ => rfl, rfl, rfl, rfl, rfl⟩

theorem witness_KeptPlacesEndTheCommand :
    active.power.startUp = false ∧ (holding [.csRise] active).link.fifo = .csRise :: [] ∧
    (holding [.dropped 0x13] active).link.fifo = .dropped 0x13 :: [] ∧ (holding [.cut] active).link.fifo = .cut :: [] ∧
    ∀ rest, active.link.fifo ≠ .cut :: rest := ⟨rfl, rfl, rfl, rfl, by intro rest h; cases h⟩

theorem witness_LinkTakesOrRefusesBytes :
    (holding [.byte .command 0x00] active).link.fifo = .byte .command 0x00 :: [] ∧ (∀ c : Cmd, (0x00 : Byte) ≠ c.code) ∧
    (atByte .displayNormal sleeping).AtCommandByte .displayNormal ∧ Cmd.params .displayNormal = 0 ∧
    (atByte .refresh sleeping).AtCommandByte .refresh ∧ (atByte .refresh sleeping).power.asleep = true ∧
    0 < Cmd.params .refresh ∧ (atByte .refresh active).power.asleep = false ∧
    (atByte .eventAck sleeping).AtCommandByte .eventAck ∧
    (atParam (.params .refresh (List.replicate 7 0)) 0 active).AtParam 0 ∧ (List.replicate 7 (0 : Byte)).length + 1 < Cmd.params .refresh ∧
    (atParam .nothing 0 active).link.taking = .nothing ∧ (atParam .ignoring 0 active).link.taking = .ignoring :=
  ⟨rfl, by intro c; cases c <;> decide, at_byte .., rfl, at_byte .., rfl, by decide, rfl, at_byte .., at_param .., by decide,
    rfl, rfl⟩

theorem witness_ResetCommandKeepsWhatItMust : active.power.startUp = false := rfl

theorem witness_IdReadReturnsTheIdentification :
    (atByte .idRead sleeping).AtCommandByte .idRead ∧ (framed .reply (.data [0x57]) 0).link.reply = .data (0x57 :: []) ∧
    (framed .reply (.data []) 0).link.framing = .reply ∧ State.reset.power.startUp = true := ⟨at_byte .., rfl, rfl, rfl⟩

theorem witness_StatusReadReturnsTheRecord : (atByte .statusRead sleeping).AtCommandByte .statusRead := at_byte ..

theorem witness_EventsAreRaisedClearedAndRouted :
    (atLast .eventAck [0xFF] 0xFF active).AtLastParam .eventAck [0xFF, 0xFF] ∧
    (atLast .routeSet [0xFF, 0xFF, 0xFF] 0xFF active).AtLastParam .routeSet [0xFF, 0xFF, 0xFF, 0xFF] :=
  ⟨at_last .eventAck [0xFF] 0xFF active rfl, at_last .routeSet [0xFF, 0xFF, 0xFF] 0xFF active rfl⟩

theorem witness_SleepAndWake :
    (atByte .sleep active).AtCommandByte .sleep ∧ (atByte .sleep active).begun.power.asleep = false ∧
    (atByte .sleep active).begun.quietForSleep = true ∧ (atByte .sleep page).begun.quietForSleep = false ∧
    (atByte .wake sleeping).begun.power.asleep = true ∧
    ({ sleeping with power := ⟨true, true, false⟩ } : State).power.waking = true :=
  ⟨at_byte .., rfl, by decide +kernel, by decide +kernel, rfl, rfl⟩

theorem witness_SleepHoldsAnIdlePart : sleeping.SleepSound ∧ sleeping.power.asleep = true ∧
    step { sleeping with pending := [.pgoodRise] } = .next (after .pgoodRise sleeping) := ⟨sleeping_sound, rfl, rfl⟩

theorem witness_SleepingBlocksDoNoWork : sleeping.SleepSound ∧ exec .frameEnd sleeping = .next sleeping :=
  ⟨sleeping_sound, rfl⟩

/-- The parameters of TEMPLATE SET for the worked template, but for the last. -/
def templateBytes : List Byte := [0, 0, 0x06, 0x80, 0, 0, 0, 64, 1, 0x2E, 48, 36, 20, 24]

theorem witness_TemplateSetChecksInOrder :
    (∀ s, (atLast .templateSet templateBytes 15 s).AtLastParam .templateSet (templateBytes ++ [15])) ∧
    (templateOf (templateBytes ++ [15])).legal = true ∧ (templateOf (templateBytes ++ [16])).legal = false ∧
    active.setter.job = none ∧ ({ bare with setter := { bare.setter with job := some job } } : State).setter.job ≠ none ∧
    (page.lines.slot 5).record.isSet = true ∧ page.setter.job = none ∧ active.lines.anySet = false ∧
    lastPixel.renderer.job ≠ none :=
  ⟨fun s => at_last _ _ _ s rfl, by decide, by decide, rfl, by decide, by decide +kernel, by decide +kernel, by decide +kernel,
    by decide⟩

theorem witness_TextLoadFillsTheBuffer :
    (∀ s b, (atLast .textLoad [0xFF, 0xFF, 0xDF] b s).AtLastParam .textLoad [0xFF, 0xFF, 0xDF, b]) ∧
    field [0xFF, 0xFF, 0xDF, 0xFF] 0 4 = 4294959103 ∧ 4294959103 < field [0xFF, 0xFF, 0xE0, 0x00] 0 4 ∧
    (∀ r b, (atParam (.text r) b active).AtParam b ∧ (atParam (.text r) b active).link.taking = .text r) ∧
    65536 * 0x10 + 256 * 0xFF + 0xFF ≤ 0x10FFFF ∧
    ({ active with setter := { active.setter with text := List.replicate 8192 ⟨0x41, 0⟩ } } : State).setter.text.length = 8192 :=
  ⟨fun s b => at_last _ _ _ s rfl, by decide, by decide, fun r b => ⟨at_param .., rfl⟩, by decide,
    List.length_replicate ..⟩

theorem witness_ComposeStartsAndIsCancelled :
    (∀ s b, (atLast .compose [1, 0, 63, 2, 0] b s).AtLastParam .compose [1, 0, 63, 2, 0, b]) ∧
    field [1, 0, 63, 2, 0, 1] 1 2 = bare.setter.text.length ∧ 1 < field [1, 0, 63, 2, 0, 2] 5 1 ∧ bare.setter.job = none ∧
    ((bare.setter.text.drop 0).all fun c => (bare.faces.face c.face).state == .ready) = true ∧
    (store []).faces.face 3 = .blank ∧ (atByte .composeCancel bare).AtCommandByte .composeCancel ∧
    (atByte .composeCancel bare).begun.power.asleep = false :=
  ⟨fun s b => at_last _ _ _ s rfl, by decide +kernel, by decide, rfl, by decide +kernel, by decide, at_byte .., rfl⟩

theorem witness_ComposeDoneSwapsTheDraft :
    ({ bare with setter := { bare.setter with job := some job } } : State).setter.job = some job := rfl

theorem witness_PageClearEmptiesItsAreas :
    (∀ s b, (atLast .pageClear [] b s).AtLastParam .pageClear [b]) ∧ field [3] 0 1 ≤ 3 ∧ 3 < field [4] 0 1 ∧
    page.setter.job = none ∧ (page.lines.slot 1).record.isSet = true ∧ active.lines.anySet = false :=
  ⟨fun s b => at_last _ _ _ s rfl, by decide, by decide, by decide +kernel, by decide +kernel, by decide +kernel⟩

/-- The candidates of the first k characters of a text. -/
def placedAt (text : List TextChar) (k : Nat) : List Placement :=
  ((text.take k).zipIdx).filterMap fun p => if p.1.code = 0xAD then none else some (candidate font p.1 (1000 + 0 + p.2))

/-- The first k characters hold no paragraph end and reach within the width and 255 placements. -/
def fitsAt (avail : Nat) (text : List TextChar) (k : Nat) : Bool :=
  ((text.take k).all fun c => c.code != 0x0A) && (placedAt text k).length ≤ 255 && naturalWidth (placedAt text k) ≤ avail

/-- A break at a space, a break at a soft hyphen, a SPLIT line, and a line split at its first placement. -/
def breakText : List TextChar := word [10] ++ ⟨0x20, 3⟩ :: word [10, 10]
def hyphenText : List TextChar := word [10] ++ ⟨0xAD, 3⟩ :: word [10, 10]
def splitText : List TextChar := word [10, 10] ++ ⟨0xAD, 3⟩ :: word [10]

/-- In turn: the text's end, a paragraph end, a break at a space and at a soft hyphen, and two SPLIT lines, the first of
which finds its soft hyphen's break unusable. -/
theorem witness_LineFitsOrIsSplit :
    text ≠ [] ∧ (fillLine font 1000 302 (text.drop 24) 24 [] none 24).hyphenated = true ∧
    (fitsAt 20 (word [10, 10]) 2 = true ∧ (fillLine font 1000 20 (word [10, 10]) 0 [] none 0).textEnd = true) ∧
    (fitsAt 20 [⟨0x0A, 3⟩] 0 = true ∧ (fillLine font 1000 20 [⟨0x0A, 3⟩] 0 [] none 0).paraEnd = true) ∧
    (fitsAt 40 breakText 3 = true ∧ fitsAt 40 breakText 4 = false ∧ placedAt breakText 1 ≠ [] ∧
      (fillLine font 1000 40 breakText 0 [] none 0).consumed = 2) ∧
    (fitsAt 25 hyphenText 3 = true ∧ fitsAt 25 hyphenText 4 = false ∧ placedAt hyphenText 1 ≠ [] ∧
      naturalWidth (placedAt hyphenText 1) + (hyphenPlacement font ⟨0xAD, 3⟩ 1001).width = 22 ∧
      (fillLine font 1000 25 hyphenText 0 [] none 0).hyphenated = true) ∧
    (fitsAt 25 splitText 3 = true ∧ fitsAt 25 splitText 4 = false ∧
      naturalWidth (placedAt splitText 2) + (hyphenPlacement font ⟨0xAD, 3⟩ 1002).width = 32 ∧
      (fillLine font 1000 25 splitText 0 [] none 0).consumed = 2) ∧
    (fitsAt 5 text 0 = true ∧ fitsAt 5 text 1 = false ∧ placedAt text 0 = [] ∧
      (fillLine font 1000 5 text 0 [] none 0).split = true ∧
      (fillLine font 1000 5 text 0 [] none 0).kept.length = 1) ∧
    (font.fullLookup 3 0x10A).isSome = true ∧ font.fullLookup 3 0x41 = none := by decide +kernel

/-- A line of two glyphs around a space of 11, of width 31. -/
def placedLine : LineEnd :=
  ⟨[⟨.glyph, 3, 0x10A, 0, 0, 10⟩, ⟨.space, 3, 0x20, 1, 0, 11⟩, ⟨.glyph, 3, 0x10A, 2, 0, 10⟩], 4, false, false, false, false, false⟩

/-- Lines of R54's table with J = 24: a slack of 24 is justified and one of 25 is LOOSE; the last line is wider than its column. -/
theorem witness_JustifiedLineFillsTheColumn :
    (lineRecord template 1000 0 0 .justify true (fillLine font 1000 302 text 0 [] none 0)).align = .justify ∧
    ([(Align.left, 247, placedLine), (.center, 247, placedLine), (.justify, 247, placedLine), (.justify, 246, placedLine),
      (.justify, 247, { placedLine with split := true }), (.justify, 247, { placedLine with kept := placedLine.kept.take 1 }),
      (.center, 272, placedLine)].map fun p =>
      let r := lineRecord template 1000 0 p.2.1 p.1 true p.2.2
      (r.align, r.flags.loose, r.placements.map Placement.pen)) =
    [(.left, false, [311, 321, 332]), (.center, false, [323, 333, 344]), (.justify, false, [311, 321, 356]),
      (.left, true, [310, 320, 331]), (.left, false, [311, 321, 332]), (.left, true, [311]),
      (.left, false, [336, 346, 357])] := by
  decide +kernel

theorem witness_DraftLinesMeetWithoutAGap :
    63 ≤ text.length ∧ draft.lines.length = 5 ∧ (text[4]?).map TextChar.code = some 0x20 ∧
    (text[5]?).map TextChar.code = some 0x10C ∧ text[63]? = none := by decide +kernel

theorem witness_SetLinesHaveBoxes : page.LinesSound ∧ exec .wakeDone page = .next (after .wakeDone page) :=
  ⟨page_lines, rfl⟩

theorem witness_ReadsAnswerOrRefuse :
    (atByte .composeResult active).AtCommandByte .composeResult ∧ (atByte .answerRead active).AtCommandByte .answerRead ∧
    (atByte .answerRead active).begun.power.asleep = false ∧
    (∀ s a b, (atLast .lineRead [a] b s).AtLastParam .lineRead [a, b]) ∧
    (field [1, 207] 0 1 = 1 ∧ field [1, 207] 1 1 = 207) ∧ 207 < field [1, 208] 1 1 ∧
    (∀ s b, (atLast .faceInfo [] b s).AtLastParam .faceInfo [b]) ∧ field [15] 0 1 ≤ 15 ∧ 15 < field [16] 0 1 ∧
    (∀ s b, (atLast .imageRead [] b s).AtLastParam .imageRead [b]) ∧ lastWrites.port.state = .filling 5 1 ∧
    window.port.isFilling = false :=
  ⟨at_byte .., at_byte .., rfl, fun s a b => at_last _ _ _ s rfl, by decide, by decide, fun s b => at_last _ _ _ s rfl, by decide,
    by decide, fun s b => at_last _ _ _ s rfl, rfl, rfl⟩

theorem witness_RecordsAreLaidOut :
    (page.lines.slot 1).record.placements.length ≤ 255 ∧
    ((page.lines.slot 1).record.placements.all fun p => p.face ≤ 15 && p.code ≤ 0x10FFFF && p.offset < 2 ^ 32 &&
      p.pen < 65536 && p.width < 65536) = true ∧
    (page.lines.slot 1).record.docEnd < 2 ^ 32 ∧ (page.lines.slot 1).length = none ∧
    (Answer.mk .scan .more 17 (List.replicate 16 mark3) false).records.length ≤ 16 ∧ mark3.InRange ∧ mark3.stop < 2 ^ 32 :=
  ⟨by decide +kernel, by decide +kernel, by decide +kernel, by decide +kernel, by decide,
    ⟨by decide, by decide, by decide, by decide, by decide, by intro n h; cases h; decide⟩, by decide⟩

theorem witness_FaceOpenChecksInOrder :
    (∀ s f, (atLast .faceOpen [f, 11, 0, 0, 0x2D, 0x10, 0xFF] 0xFF s).AtLastParam .faceOpen
      [f, 11, 0, 0, 0x2D, 0x10, 0xFF, 0xFF]) ∧
    field [15, 11, 0, 0, 0x2D, 0x10, 0xFF, 0xFF] 0 1 = 15 ∧ field [2, 11, 0, 0, 0x2D, 0x10, 0xFF, 0xFF] 5 3 = 0x10FFFF ∧
    (active.faces.face 2).state = .empty ∧ ((store []).faces.face 2).state ≠ .empty :=
  ⟨fun s f => at_last _ _ _ s rfl, by decide, by decide, by decide, by decide⟩

theorem witness_FaceSealAndRetire :
    (∀ s f, (atLast .faceSeal [] f s).AtLastParam .faceSeal [f]) ∧
    (∀ s f, (atLast .faceRetire [] f s).AtLastParam .faceRetire [f]) ∧ field [15] 0 1 = 15 ∧
    ((store step2).faces.face 2).state = .loading ∧ (page.faces.face 3).state = .ready ∧ page.lines.usesFace 3 = true ∧
    page.lines.usesFace 15 = false ∧ (page.faces.face 15).state = .ready ∧ (page.faces.face 0).state = .empty :=
  ⟨fun s f => at_last _ _ _ s rfl, fun s f => at_last _ _ _ s rfl, by decide, by decide, by decide +kernel, by decide +kernel,
    by decide +kernel, by decide +kernel, by decide +kernel⟩

theorem witness_PoolTakesTheLowestFreeRun :
    (store step2).FacesSound ∧ (store step2).faces.freeRun 1 = some 92 ∧ (store step2).faces.freeRun 8100 = some 92 ∧
    (store step2).faces.freeRun 8101 = none ∧ (store step2).faces.largestFreeRun = 8100 ∧
    (store step2).faces.freeBlocks = 8100 :=
  ⟨store_faces, by decide +kernel, by decide +kernel, by decide +kernel, by decide +kernel, by decide +kernel⟩

/-- A face store that receives the last byte of a bitmap in the pool's last block. -/
def receivingLast : State := { active with
  faces := { (store [⟨2, 0x41, 0, 0, 0, 2, 2, some 8191, 1⟩]).faces with receiving := some ⟨2, 0x41, 1⟩ } }

theorem witness_GlyphPutReceivesItsBitmap :
    (∀ s w, (atLast .glyphPut [2, 0, 0, 0x6D, 0, 0, 0, w] 160 s).AtLastParam .glyphPut [2, 0, 0, 0x6D, 0, 0, 0, w, 160]) ∧
    field [2, 0, 0, 0x6D, 0, 0, 0, 128, 160] 7 1 = 128 ∧ 128 < field [2, 0, 0, 0x6D, 0, 0, 0, 129, 160] 7 1 ∧
    ((store step2).faces.face 2).state = .loading ∧ ((store step2).faces.face 3).state ≠ .loading ∧
    (store step2).faces.freeRun 80 = some 92 ∧ (store [⟨2, 0, 0, 0, 0, 0, 0, some 0, 8192⟩]).faces.freeRun 80 = none ∧
    4096 ≤ (store (List.replicate 4096 (glyph 2 0 0))).faces.directory.length ∧
    (atParam .glyph 0 receivingLast).AtParam 0 ∧ receivingLast.faces.receiving = some ⟨2, 0x41, 1⟩ ∧
    (receivingLast.faces.entry 2 0x41).bind Glyph.firstBlock = some 8191 ∧ (atParam .glyph 0 receivingLast).Canonical :=
  ⟨fun s w => at_last _ _ _ s rfl, by decide, by decide, by decide, by decide, by decide +kernel, by decide +kernel,
    Nat.le_of_eq (List.length_replicate ..).symm, at_param .., rfl, by decide, rfl, rfl, rfl, rfl, rfl⟩

theorem witness_GlyphRunsNeverOverlap : (store step2).FacesSound ∧ step (store step2) = .next (store step2) :=
  ⟨store_faces, rfl⟩

theorem witness_ReadyFacesDoNotChange :
    page.FacesSound ∧ page.Canonical ∧ exec .frameEnd page = .next (after .frameEnd page) ∧
    (page.faces.face 3).state = .ready := ⟨page_faces.1, page_faces.2, rfl, by decide +kernel⟩

theorem witness_RequestsJoinTheQueue :
    active.marks.serving = none ∧ active.marks.queue = [] ∧
    (∀ s b, (atLast .markAdd [0, 7, 0, 0, 3, 0xF2, 0, 0, 3, 0xFC, 0, 10, 0] b s).AtLastParam .markAdd
      [0, 7, 0, 0, 3, 0xF2, 0, 0, 3, 0xFC, 0, 10, 0, b]) ∧
    (∀ s b, (atLast .markRange [0, 7, 0, 0, 4, 0x1A, 0, 0, 4] b s).AtLastParam .markRange [0, 7, 0, 0, 4, 0x1A, 0, 0, 4, b]) ∧
    (∀ s b, (atLast .markStyle [0, 7, 0, 10, 0, 0] b s).AtLastParam .markStyle [0, 7, 0, 10, 0, 0, b]) ∧
    (∀ s b, (atLast .markRetire [0] b s).AtLastParam .markRetire [0, b]) ∧
    (∀ s b, (atLast .markSweep [0, 0, 3, 0xE8, 0, 0, 4] b s).AtLastParam .markSweep [0, 0, 3, 0xE8, 0, 0, 4, b]) ∧
    (∀ s b, (atLast .markGet [0] b s).AtLastParam .markGet [0, b]) ∧
    (∀ s b, (atLast .markAt [0, 1, 0] b s).AtLastParam .markAt [0, 1, 0, b]) ∧
    (∀ s b, (atLast .markScan [0, 0, 0, 0, 0, 0, 0] b s).AtLastParam .markScan [0, 0, 0, 0, 0, 0, 0, b]) ∧
    (atByte .markClear active).AtCommandByte .markClear ∧ (atByte .scanNext active).AtCommandByte .scanNext :=
  ⟨rfl, rfl, fun s _ => at_last _ _ _ s rfl, fun s _ => at_last _ _ _ s rfl, fun s _ => at_last _ _ _ s rfl,
    fun s _ => at_last _ _ _ s rfl, fun s _ => at_last _ _ _ s rfl, fun s _ => at_last _ _ _ s rfl,
    fun s _ => at_last _ _ _ s rfl, fun s _ => at_last _ _ _ s rfl, at_byte .., at_byte ..⟩

theorem witness_RequestParametersRoundTrip :
    (MarkRequest.add 65535 4294901760 4294967295 .box 15 3 (some 255)).InRange ∧ 4294967295 < 2 ^ 32 ∧
    (MarkRequest.range 1 0 65535).InRange ∧ (MarkRequest.restyle 1 .fill 0 0 none true).InRange ∧
    65535 < 65536 - 0 ∧ (markAddOf (twoBytes 1 ++ fourBytes 0 ++ fourBytes 65535 ++ [3, 15, 3, 255])).isSome = true ∧
    3 < (4 : Byte).toNat ∧ 15 < (16 : Byte).toNat ∧ 1 < (2 : Byte).toNat ∧
    (markStyleOf (twoBytes 65535 ++ [3, 15, 3, 0, 1])).isSome = true :=
  ⟨⟨by decide, by intro n h; cases h; decide⟩, by decide, rfl, ⟨by decide, by intro n h; cases h⟩, by decide, by decide,
    by decide, by decide, by decide, by decide⟩

theorem witness_MarkTableStaysInOrder : (marked hitMarks).MarksSound ∧ 
    exec .serviceDone (marked hitMarks) = .next (after .serviceDone (marked hitMarks)) := ⟨hit_page_laws.2, rfl⟩

theorem serving_table (r : MarkRequest) (table : List Mark) :
    (serving r table).marks.table = table.map (Mark.onLines page.lines) := rfl

theorem marked_laws : (marked [mark7, mark3]).MarksSound :=
  marks_sound _ (by decide +kernel) (by decide +kernel) (by decide +kernel) (by decide +kernel) (by decide +kernel)
    (by intro r h; cases h)

/-- The page with a request in service keeps the law of the mark table. -/
theorem serving_marks (r : MarkRequest) (h : r.InRange) : (serving r [mark7, mark3]).MarksSound := by
  obtain ⟨h1, h2, h3, h4, h5, h6, -, -⟩ := marked_laws
  exact ⟨h1, h2, h3, h4, h5, h6, fun q hq => by cases hq; exact h, fun hq => by cases hq⟩

theorem witness_MarkChangesAtServiceDone :
    (serving (.retire 7) [mark7, mark3]).MarksSound ∧
    (serving (.retire 7) [mark7, mark3]).marks.serving = some (.retire 7) ∧
    (serving (.retire 7) [mark7, mark3]).marks.table.map Mark.id = [7, 3] ∧
    (serving (.add 3 1040 1050 .underline 0 1 none) [mark7]).marks.table.length < 512 ∧
    (serving (.add 8 0 1 .fill 0 0 none) (List.replicate 512 mark7)).marks.table.length = 512 ∧
    (serving (.sweep 1010 1020) [mark7]).marks.serving = some (.sweep 1010 1020) ∧
    (serving .clear [mark7]).marks.serving = some .clear :=
  ⟨serving_marks _ rfl, rfl, by decide +kernel, by decide +kernel,
    by rw [serving_table, List.length_map, List.length_replicate], rfl, rfl⟩

theorem witness_ChangesListTheLinesTheyTouch :
    (serving .clear [mark7, mark3]).MarksSound ∧ (serving .clear [mark7, mark3]).marks.serving = some .clear ∧
    exec .serviceDone (serving .clear [mark7, mark3]) = .next (after .serviceDone (serving .clear [mark7, mark3])) :=
  ⟨serving_marks _ rfl, rfl, rfl⟩

theorem witness_QueriesFillTheAnswerSlot :
    (∀ r, (serving r [mark7]).marks.serving = some r) ∧
    findMark 7 (serving (.get 7) [mark7]).marks.table = some mark7 ∧
    ((serving (.get 8) [mark7]).marks.table.all fun m => m.id != 8) = true ∧
    (serving (.at 209 0) [mark7]).hits 209 0 ≠ [] ∧ (serving (.at 0 1663) [mark7]).hits 0 1663 = [] ∧
    (active.marks.scan = none) ∧
    (((serving (.scan 0 2000) (List.replicate 17 mark7)).marks.table.filter fun m => m.start < 2000 && 0 < m.stop).length = 17) :=
  ⟨fun _ => rfl, by decide +kernel, by decide +kernel, by decide +kernel, by decide +kernel, rfl, by decide +kernel⟩

theorem witness_HitTestFindsTheMarksUnderAPoint :
    (marked hitMarks).LinesSound ∧ (marked hitMarks).MarksSound ∧ template.boxTop 1 = some 0 ∧ 47 < 0 + template.pitch ∧
    ((marked hitMarks).lines.slot 1).record.isSet = true ∧ template.boxTop 34 = some 1584 ∧
    ((marked hitMarks).lines.slot 34).record.isSet = false ∧
    ((List.range 210).all fun k => (template.boxTop k).all fun top => decide (¬ (top ≤ 1632 ∧ 1632 < top + 48))) = true :=
  ⟨hit_page_laws.1, hit_page_laws.2, by decide, by decide, by decide +kernel, by decide, by decide +kernel, by decide +kernel⟩

theorem hit_page_faces : (marked hitMarks).FacesSound :=
  faces_sound _ (by decide +kernel) (by decide +kernel) (by decide +kernel) (by decide +kernel)
    ⟨fun _ => by decide +kernel, fun _ => by decide +kernel⟩ (by intro r h; cases h)

/-- Mark 7 reaches over the space after its word to column 335, and the note of mark 12 begins at L + M + 8. -/
theorem witness_SegmentsAndNotesOfALine :
    (marked hitMarks).MarksSound ∧ (marked hitMarks).FacesSound ∧ (page.lines.slot 1).record.isSet = true ∧
    mark7.span (page.lines.slot 1).record = some (209, 335) ∧ mark3.span (page.lines.slot 1).record = none ∧
    (lineNotes page.faces page.setter.template (marked hitMarks).marks.table page.lines 1).map (fun n => (n.mark.id, n.x)) =
      [(12, 374)] ∧
    lineNotes page.faces page.setter.template (marked hitMarks).marks.table page.lines 2 = [] :=
  ⟨hit_page_laws.2, hit_page_faces, by decide +kernel, by decide +kernel, by decide +kernel, by decide +kernel,
    by decide +kernel⟩

theorem witness_RenderStartDescribesOrSkips :
    page.renderer.job = none ∧ page.renderer.list.head? = some (1, .page) ∧ (page.lines.slot 1).signature = none ∧
    (page.lines.slot 209).record.isSet = false ∧ (page.lines.slot 1).record.isSet = true ∧
    (marked hitMarks).MarksSound ∧ lastPixel.renderer.job ≠ none ∧ active.renderer.list = [] :=
  ⟨by decide +kernel, by decide +kernel, by decide +kernel, by decide +kernel, by decide +kernel, hit_page_laws.2, by decide, rfl⟩

/-- The part with a READY glyph of 2 by 2 pixels, of coverages 8, 15, 0 and 0, for texts and one for notes. -/
def inked : State := { active with
  faces := { FaceStore.initial with
    faces := put FaceStore.initial.faces 15 ⟨.ready, 11, 0x2D, 0x2A⟩
    directory := [⟨15, 0x2A, 1, 2, 4, 2, 2, some 5, 1⟩, ⟨15, 0xE002, 0, 0, 4, 2, 2, some 6, 1⟩]
    pool := [(640, 0x8F), (768, 0x8F)] }
  setter := { active.setter with template := template } }

/-- The description of a fill at shade 9, an underline at shade 0, a glyph by its missing code, and a note. -/
def inkedLine : Description :=
  ⟨true, [⟨.glyph, 15, 0x41, 100⟩], [⟨.fill, 9, 90, 110⟩, ⟨.underline, 0, 90, 110⟩], [⟨2, 374⟩], .clear⟩

theorem witness_BoxPixelsFollowThePaintRules :
    inked.FacesSound ∧ 48 ≤ 82 ∧ 82 < 48 + inked.setter.template.pitch ∧
    [(102, 80), (103, 80), (102, 81), (90, 80), (111, 80), (100, 86), (374, 80), (375, 80)].map (fun p =>
      (boxLevel inked.faces inked.setter.template inkedLine 48 p.1 p.2).val) = [4, 0, 9, 9, 15, 0, 7, 0] :=
  ⟨faces_sound _ (by decide) (by decide) (by decide) (by decide +kernel) ⟨fun _ => by decide, fun _ => rfl⟩
    (by intro r h; cases h), by decide, by decide, by decide +kernel⟩

theorem witness_ArbiterGrantsOneWrite :
    lastWrites.Canonical ∧ lastWrites.RectsOnPanel ∧ lastWrites.PortSound ∧ lastWrites.port.state = .filling 5 1 ∧
    lastWrites.image.turn = .renderer ∧ lastWrites.renderer.job = some ⟨1, .mark, .blank, 59903⟩ ∧
    1248 * lastWrites.setter.template.pitch ≤ 59903 + 1 ∧ 59902 + 1 < 1248 * lastWrites.setter.template.pitch :=
  ⟨last_writes_laws.1, last_writes_laws.2.1, last_writes_laws.2.2.2, rfl, rfl, rfl, by decide, by decide⟩

theorem witness_RenderDonePaintsTheBox :
    lastWrites.Canonical ∧ lastWrites.RectsOnPanel ∧ lastWrites.LinesSound ∧ lastWrites.PortSound ∧
    lastWrites.renderer.job = some ⟨1, .mark, .blank, 59903⟩ ∧ lastWrites.setter.template.boxTop 1 = some 0 ∧
    lastWrites.port.window.holds 1243 1663 = false ∧ lastPixel.port.isFilling = false ∧
    (portsTurn.image.turn = .port ∧ portsTurn.renderer = lastWrites.renderer ∧ portsTurn.port = lastWrites.port) ∧
    exec .arbiterWriteGrant portsTurn = .next (after .arbiterWriteGrant portsTurn) ∧
    (after .arbiterWriteGrant portsTurn).port.state = .idle ∧
    (lastWrites.image.turn = .renderer ∧ 1248 * lastWrites.setter.template.pitch ≤ 59903 + 1) ∧
    (after .renderDone lastWrites).sched.queue = [⟨⟨0, 0, 1247, 47⟩, .fast, .render, false⟩] ∧
    (after .renderDone lastWrites).raised .renderIdle = true ∧
    (after .renderDone lastWrites).port = lastWrites.port :=
  ⟨last_writes_laws.1, last_writes_laws.2.1, last_writes_laws.2.2.1, last_writes_laws.2.2.2, rfl, by decide, by decide, rfl,
    ⟨rfl, rfl, rfl⟩, rfl, by decide +kernel, ⟨rfl, by decide⟩, by decide +kernel, by decide +kernel, by decide +kernel⟩

theorem witness_ImagePortWritesItsWindow :
    (∀ s b, (atLast .imageWindow [4, 0xDF, 6, 0x7F, 0xFF, 0xFF, 0xFF, 0xFF] b s).AtLastParam .imageWindow
      [4, 0xDF, 6, 0x7F, 0xFF, 0xFF, 0xFF, 0xFF, b]) ∧
    field [4, 0xDF, 6, 0x7F, 0xFF, 0xFF, 0xFF, 0xFF, 3] 0 2 = 1247 ∧ 3 < field [4, 0xDF, 6, 0x7F, 0xFF, 0xFF, 0xFF, 0xFF, 4] 8 1 ∧
    (∀ s b, (atLast .imageFill [15, 1, 0] b s).AtLastParam .imageFill [15, 1, 0, b]) ∧ field [15, 1, 0, 0] 1 3 = 65536 ∧
    65536 < field [15, 1, 0, 1] 1 3 ∧ window.port.isFilling = false ∧ window.port.position < window.port.size ∧
    (atByte .imageWrite window).AtCommandByte .imageWrite ∧ (atByte .imageWrite window).begun.power.asleep = false ∧
    (atParam .image 0x12 window).AtParam 0x12 ∧ (atParam .image 0x12 window).link.taking = .image ∧
    lastWrites.PortSound ∧ lastWrites.port.state = .filling 5 1 ∧ lastWrites.renderer.job ≠ none ∧
    lastWrites.image.turn = .renderer ∧
    exec .arbiterWriteGrant lastWrites = .next (after .arbiterWriteGrant lastWrites) ∧
    (streaming.AtParam 0x12 ∧ streaming.link.taking = .image ∧ streaming.PortSound) ∧
    ((after .imageWriteByte streaming).image.target.level 1247 1663,
      (after .imageWriteByte streaming).renderer.job, (after .imageWriteByte streaming).port.position) = (1, none, 4) :=
  ⟨fun s b => at_last _ _ _ s rfl, by decide, by decide, fun s b => at_last _ _ _ s rfl, by decide, by decide, rfl, by decide,
    at_byte .., rfl, at_param .., rfl, last_writes_laws.2.2.2, rfl, by decide, rfl, rfl,
    ⟨⟨[], rfl⟩, rfl, by decide, by intro v left h; cases h⟩, by decide +kernel⟩

theorem witness_RequestsMergeJoinOrSqueeze :
    ({ active with sched := { active.sched with blank := true } } : State).sched.blank = true ∧
    (lineRequest 144 191).qualifies (lineRequest 192 239) = true ∧ (lineRequest 144 191).qualifies (lineRequest 193 239) = false ∧
    (List.replicate 15 (lineRequest 0 9)).length < 16 ∧
    List.replicate 16 (lineRequest 0 9) = List.replicate 15 (lineRequest 0 9) ++ [lineRequest 0 9] ∧
    (Rect.mk 0 144 1247 191).onPanel ∧ (Rect.mk 0 192 1247 239).sharesEdge ⟨0, 144, 1247, 191⟩ = true ∧
    (Rect.mk 0 0 9 9).sharesEdge ⟨10, 10, 19, 19⟩ = false ∧ (Rect.mk 0 0 9 9).sharesEdge ⟨10, 9, 19, 19⟩ = true :=
  ⟨rfl, by decide, by decide, by decide, rfl, on_panel _ (by decide), by decide, by decide, by decide⟩

theorem witness_RefreshDisplayAndSettingsCommands :
    (∀ s b, (atLast .refresh [0, 1, 0, 1, 0, 1, 0, 1] b s).AtLastParam .refresh [0, 1, 0, 1, 0, 1, 0, 1, b]) ∧
    field [0, 1, 0, 1, 0, 1, 0, 1, 3] 8 1 = Mode.rank .clean + 1 ∧ 3 < field [0, 1, 0, 1, 0, 1, 0, 1, 4] 8 1 ∧
    (∀ s b, (atLast .schedSet [1, 3, 255, 255] b s).AtLastParam .schedSet [1, 3, 255, 255, b]) ∧
    1 < field [1, 3, 255, 255, 2] 4 1 ∧ (∀ s b, (atLast .driveSet [] b s).AtLastParam .driveSet [b]) ∧
    (∀ s b, (atLast .supplySet [0, 16] b s).AtLastParam .supplySet [0, 16, b]) ∧
    (∀ c : Cmd, (atByte c active).AtCommandByte c ∧ (atByte c active).begun.power.asleep = false) ∧
    active.sched.inverted = false ∧ active.sched.blank = false ∧
    ({ active with sched := { active.sched with inverted := true, blank := true } } : State).sched.inverted = true :=
  ⟨fun s b => at_last _ _ _ s rfl, by decide, by decide, fun s b => at_last _ _ _ s rfl, by decide,
    fun s b => at_last _ _ _ s rfl, fun s b => at_last _ _ _ s rfl, fun c => ⟨at_byte .., rfl⟩, rfl, rfl, rfl⟩

/-- All eight slots drive. -/
def allDriving : State := { running with sched := { running.sched with
  slots := mapPlaces (fun i _ => some ⟨⟨0, 100 * i, 9, 100 * i⟩, .fast, 4, 3, 0, true⟩) running.sched.slots } }

theorem witness_ScanAndLatchDecide :
    active.sched.queue = [] ∧ driving.sched.queue ≠ [] ∧ driving.drive.reading = some 22 ∧
    driving.drive.bands.tmin ≤ 22 ∧ (22 : Int) ≤ driving.drive.bands.tmax ∧ active.drive.reading = none ∧
    driving.supply.state = .on ∧ active.supply.state = .off ∧ active.supply.pgood = false ∧ driving.supply.pgood = true ∧
    (lineRequest 207 208).rect.y0 ≤ (lineRequest 207 208).rect.y1 ∧ active.sched.panelKnown = false ∧
    driving.sched.panelKnown = true ∧ driving.sched.settings.ghostLimit ≤ 40 ∧
    driving.drive.chooseMode .fast = some .fast ∧ active.drive.chooseMode .fast = none ∧
    (driving.sched.slot 0 = none ∧ (driving.sched.queue.map fun e => driving.sched.blocked [] e.rect) = [true, true]) ∧
    (lineRequest 0 9).promote driving.sched = lineRequest 0 9 ∧ driving.sched.blocked [] (lineRequest 0 9).rect = false ∧
    ((lineRequest 0 9).promote active.sched).rect ≠ (lineRequest 0 9).rect ∧
    driving.sched.blocked [] ((lineRequest 0 9).promote active.sched).rect = true ∧
    ((List.range 8).all fun i => (allDriving.sched.slot i).isSome) = true := by decide +kernel

/-- One entry promoted by its zone's ghost score, one that it then meets, and one that meets neither. -/
def waitingThree : State := { running with sched := { running.sched with
  ghost := put running.sched.ghost 0 40
  queue := [lineRequest 0 9, ⟨⟨0, 200, 9, 209⟩, .gray, .window, false⟩, lineRequest 300 309] } }

/-- The first and the last start in slots 1 and 2, the second is left as it was: fates slot 1, none, slot 2. -/
theorem test_scan_starts :
    let t := waitingThree.judgeEntries
    (List.range 3).map (fun i => (t.sched.slot i).map fun d => (d.rect, d.mode, d.enrolled)) =
      [some (⟨0, 0, 1247, 207⟩, .clean, true), some (⟨0, 300, 1247, 309⟩, .fast, false), none] ∧
    t.sched.queue = [⟨⟨0, 200, 9, 209⟩, .gray, .window, false⟩] ∧ t.sched.waveHold = false := by decide +kernel

/-- Without a table the entry is held for want of a waveform, and NO_WAVEFORM is raised once. -/
theorem test_want_of_a_waveform :
    let s : State := { waitingThree with drive := { waitingThree.drive with band := 3 } }
    let t := s.judgeEntries
    t.sched.waveHold = true ∧ t.raised .noWaveform = true ∧ t.sched.queue = s.sched.queue ∧
      (t.judgeEntries).events = t.events := by decide +kernel

theorem witness_ScanLeavesNothingStartable :
    driving.Canonical ∧ driving.SchedulerSound ∧ driving.RectsOnPanel ∧
    (running.post (lineRequest 0 9)).sched.slot 0 = some ⟨⟨0, 0, 1247, 9⟩, .fast, 4, 3, 0, true⟩ ∧
    (waitingThree.Canonical ∧ waitingThree.SchedulerSound ∧ waitingThree.RectsOnPanel) ∧
    waitingThree.judgeEntries.sched.slot 2 = none :=
  ⟨driving_laws.1, driving_laws.2.1, driving_laws.2.2, by decide +kernel,
    ⟨⟨rfl, rfl, rfl, rfl, rfl⟩, scheduler_sound _ (by decide) (by decide +kernel),
      rects_on_panel _ (by decide +kernel) (by decide +kernel) (by decide) (by decide)⟩, by decide +kernel⟩

/-- Slot 2 drives its last frame, slots 3 and 5 go on, slot 6 waits, and entry q meets slot 5. -/
def someComplete : State := { driving with sched := { driving.sched with
  slots := put (put driving.sched.slots 1 (some ⟨⟨0, 144, 1247, 191⟩, .fast, 4, 3, 2, true⟩)) 5
    (some ⟨⟨0, 700, 9, 709⟩, .gray, 4, 3, 0, false⟩)
  queue := ⟨⟨0, 150, 1247, 160⟩, .gray, .window, false⟩ :: driving.sched.queue } }

theorem some_complete_laws : someComplete.Canonical ∧ someComplete.SchedulerSound ∧ someComplete.RectsOnPanel :=
  ⟨⟨rfl, rfl, rfl, rfl, rfl⟩, scheduler_sound _ (by decide) (by decide +kernel),
    rects_on_panel _ (by decide +kernel) (by decide +kernel) (by decide) (by decide)⟩

/-- Its frame end completes slot 2, whose place the waiting entry above it takes, not yet enrolled. -/
theorem test_frame_end_with_a_completion :
    let t := after .frameEnd someComplete
    (List.range 7).map (fun i => (t.sched.slot i).map fun d => (d.rect.y0, d.count, d.enrolled)) =
      [some (150, 0, false), none, some (480, 2, true), none, some (1300, 2, true), some (700, 0, true), none] ∧
    t.sched.queue = driving.sched.queue ∧ t.raised .refreshDone = true ∧ t.drive.frame = some 12 := by decide +kernel

theorem witness_FrameEndDrivesEachSlot :
    driving.drive.frame = some 12 ∧ active.drive.frame = none ∧ driving.Canonical ∧ driving.SchedulerSound ∧
    driving.RectsOnPanel ∧
    ((List.range 8).all fun i => (driving.sched.slot i).all fun d => decide (d.count + 1 ≠ d.length)) = true ∧
    driving.sched.slot 1 = some ⟨⟨0, 144, 1247, 191⟩, .fast, 4, 3, 1, true⟩ ∧
    (Rect.mk 0 144 1247 191).holds 1247 191 = true ∧ driving.drive.table .fast 4 = .ready 3 [] ∧
    (someComplete.Canonical ∧ someComplete.SchedulerSound ∧ someComplete.RectsOnPanel) ∧
    someComplete.drive.frame = some 12 ∧
    someComplete.sched.slot 1 = some ⟨⟨0, 144, 1247, 191⟩, .fast, 4, 3, 2, true⟩ ∧
    someComplete.sched.slot 0 = none ∧ (after .frameEnd someComplete).sched.slot 0 ≠ none :=
  ⟨rfl, rfl, driving_laws.1, driving_laws.2.1, driving_laws.2.2, by decide +kernel, by decide +kernel, by decide, by decide +kernel,
    some_complete_laws, rfl, by decide +kernel, by decide +kernel, by decide +kernel⟩

/-- One slot drives its last frame, with nothing pending. -/
def completing : State := { running with
  drive := { running.drive with frame := some 12 }
  sched := { running.sched with slots := put running.sched.slots 7 (some ⟨.panel, .clean, 4, 3, 2, true⟩) } }

theorem witness_CompletionLeadsToQuiet :
    completing.Canonical ∧ Rect.panel.onPanel ∧ completing.sched.slot 7 = some ⟨.panel, .clean, 4, 3, 2, true⟩ ∧ 2 + 1 = 3 ∧
    ((List.range 7).all fun k => (completing.sched.slot k).isNone) = true ∧ completing.sched.queue = [] ∧
    completing.drive.frame = some 12 ∧ completing.sched.settings.settleTime ≠ 0 ∧ active.sched.settle = none ∧
    (after .frameEnd completing).sched.settle ≠ none ∧ active.sched.settings.tidy = true :=
  ⟨⟨rfl, rfl, rfl, rfl, rfl⟩, on_panel _ (by decide), by decide +kernel, rfl, by decide +kernel, rfl, rfl, by decide, rfl,
    by decide +kernel, rfl⟩

theorem witness_SchedulerLawsAreKept :
    driving.SchedulerSound ∧ driving.RectsOnPanel ∧ step driving = .next driving := ⟨driving_laws.2.1, driving_laws.2.2, rfl⟩

theorem witness_BoundsAndFormsAreKept :
    lastWrites.PortSound ∧ lastWrites.Canonical ∧ lastWrites.FifoBounded ∧ lastWrites.RenderListSound ∧
    step lastWrites = .next lastWrites :=
  ⟨last_writes_laws.2.2.2, last_writes_laws.1, show lastWrites.link.bytes ≤ 256 by decide, ⟨by decide, by decide⟩, rfl⟩

/-- The same, where the panel is driven towards level 3. -/
def towardsThree : State := { completing with image := { completing.image with goal := [(0, 3)] } }

/-- The last byte of a REFRESH of columns 0 to 9 in GRAY, over a target of level 3. -/
def refreshing : State := { atLast .refresh [0, 0, 0, 0, 0, 9, 0, 9] 2 running with
  image := { running.image with target := [(0, 3)] } }

theorem witness_OnlyTheirWritersChangeThePlanes :
    exec .frameEnd driving = .next (after .frameEnd driving) ∧ driving.Canonical ∧ driving.SchedulerSound ∧ driving.RectsOnPanel ∧
    (after .frameEnd towardsThree).image.current.level 0 0 = 3 ∧ towardsThree.image.current.level 0 0 = 15 ∧
    exec .refresh refreshing = .next (after .refresh refreshing) ∧ refreshing.Canonical ∧ refreshing.RectsOnPanel ∧
    ((after .refresh refreshing).image.goal.level 9 9, refreshing.image.goal.level 9 9) = (3, 15) ∧
    (after .refresh refreshing).sched.slot 0 = some ⟨⟨0, 0, 9, 9⟩, .gray, 4, 3, 0, true⟩ ∧
    driving.sched.slot 1 = some ⟨⟨0, 144, 1247, 191⟩, .fast, 4, 3, 1, true⟩ :=
  ⟨rfl, driving_laws.1, driving_laws.2.1, driving_laws.2.2, by decide +kernel, by decide +kernel, rfl, ⟨rfl, rfl, rfl, rfl, rfl⟩,
    rects_on_panel _ (by decide) (by decide +kernel) (by decide) (by decide), by decide +kernel, by decide +kernel,
    by decide +kernel⟩

theorem witness_WavesAndTemperature :
    (∀ s b, (atLast .waveLoad [2, 7] b s).AtLastParam .waveLoad [2, 7, b]) ∧ field [2, 7, 255] 0 1 = Mode.rank .clean ∧
    field [2, 7, 0] 2 1 = 0 ∧ driving.sched.slot 1 = some ⟨⟨0, 144, 1247, 191⟩, .fast, 4, 3, 1, true⟩ ∧
    (∀ s b, (atParam (.wave .clean 7) b s).AtParam b ∧ (atParam (.wave .clean 7) b s).link.taking = .wave .clean 7) ∧
    ({ active with drive := { active.drive with tables := put active.drive.tables 23 (.loading 1 (List.replicate 63 0)) } } : State).drive.table
      .clean 7 = .loading 1 (List.replicate 63 0) ∧
    (∀ s b, (atLast .bandsSet [5, 10, 15, 20, 25, 30, 70, 7, 0xEC] b s).AtLastParam .bandsSet
      [5, 10, 15, 20, 25, 30, 70, 7, 0xEC, b]) ∧
    (bandSettingsOf [5, 10, 15, 20, 25, 30, 70, 7, 0xEC, 70]).isSome = true ∧
    (bandSettingsOf [5, 10, 15, 20, 25, 30, 71, 7, 0xEC, 70]).isSome = false ∧
    driving.drive.reading = some 22 ∧ active.drive.reading = none ∧ active.drive.firstReading = true ∧
    (∀ s b, (atLast .tempSet [] b s).AtLastParam .tempSet [b]) ∧ driving.drive.firstReading = false ∧ driving.drive.band = 4 ∧
    signedField [25] 0 = 25 ∧ signedField [17] 0 = 17 ∧ driving.drive.age = .running ∧ active.drive.age ≠ .running :=
  ⟨fun s b => at_last _ _ _ s rfl, by decide, by decide, by decide +kernel, fun s b => ⟨at_param .., rfl⟩, by decide +kernel,
    fun s b => at_last _ _ _ s rfl, by decide, by decide, rfl, rfl, rfl, fun s b => at_last _ _ _ s rfl, rfl, rfl, by decide,
    by decide, rfl, by decide⟩

theorem witness_SupplyFollowsPowerGood :
    (∀ st, ({ active with supply := { active.supply with state := st } } : State).supply.state = st) ∧
    active.supply.pgood = false ∧ driving.supply.pgood = true ∧ active.supply.settings.filterTime ≠ 0 ∧
    driving.sched.repairs.length = 3 ∧ driving.sched.queue.length + driving.sched.repairs.length ≤ 16 ∧
    (List.replicate 14 (lineRequest 0 9)).length ≤ 16 ∧
    16 < (List.replicate 14 (lineRequest 0 9)).length + driving.sched.repairs.length ∧ active.sched.repairs = [] ∧
    active.sched.queue.length < 16 ∧
    List.replicate 16 (lineRequest 0 9) = List.replicate 14 (lineRequest 0 9) ++ [lineRequest 0 9, lineRequest 0 9] ∧
    (atByte .supplyClear active).AtCommandByte .supplyClear ∧ (atByte .supplyClear active).begun.power.asleep = false :=
  ⟨fun _ => rfl, rfl, rfl, by decide, by decide +kernel, by decide +kernel, by decide, by decide +kernel, by decide +kernel,
    by decide, rfl, at_byte .., rfl⟩

end Sys2Proof.Tests
end

section
/-! PROOF. FACE OPEN (R20): check 1 of its operands, its effect in each case, and what an EMPTY face holds. -/

namespace Sys2Proof.Machine

/-- The parameters fail check 1 of R20. -/
def FaceOpenBad (ps : List Byte) : Prop :=
  15 < field ps 0 1 ∨ field ps 1 1 = 0 ∨ 0x10FFFF < field ps 2 3 ∨ 0x10FFFF < field ps 5 3

theorem faceOpenOf_of_bad {ps : List Byte} (h : FaceOpenBad ps) : faceOpenOf ps = none := by
  unfold faceOpenOf
  refine if_neg ?_
  rintro ⟨hface, hspace, hhyphen, hmissing⟩
  rcases h with h | h | h | h
  · exact hface.not_gt h
  · exact hspace h
  · exact hhyphen.not_gt h
  · exact hmissing.not_gt h

theorem faceOpenOf_of_not_bad {ps : List Byte} (h : ¬ FaceOpenBad ps) :
    faceOpenOf ps = some ⟨field ps 0 1, ⟨.loading, field ps 1 1, field ps 2 3, field ps 5 3⟩⟩ := by
  simp only [FaceOpenBad, not_or, not_lt] at h
  exact if_pos h

theorem State.faceOpen_of_bad {ps : List Byte} {p : State} (h : FaceOpenBad ps) :
    p.faceOpen ps = p.refuse 0x20 .badParam := by
  rw [State.faceOpen, faceOpenOf_of_bad h]
  rfl

theorem State.faceOpen_of_taken {ps : List Byte} {p : State} (h : ¬ FaceOpenBad ps)
    (ht : (p.faces.face (field ps 0 1)).state ≠ .empty) : p.faceOpen ps = p.refuse 0x20 .wrongState := by
  rw [State.faceOpen, faceOpenOf_of_not_bad h]
  exact if_neg ht

theorem State.faceOpen_of_empty {ps : List Byte} {p : State} (h : ¬ FaceOpenBad ps)
    (he : (p.faces.face (field ps 0 1)).state = .empty) :
    p.faceOpen ps = p.onFaces fun fs =>
      fs.setFace (field ps 0 1) ⟨.loading, field ps 1 1, field ps 2 3, field ps 5 3⟩ := by
  rw [State.faceOpen, faceOpenOf_of_not_bad h]
  exact if_pos he

theorem exec_faceOpen_atLastParam {s : State} {ps : List Byte} (h : s.AtLastParam .faceOpen ps) :
    exec .faceOpen s = .next (s.paramsTaken.faceOpen ps).settleCut :=
  congrArg _ (State.atLastParam_acts State.faceOpen h)

/-- An EMPTY face has no directory entry (R17, R27). -/
theorem State.FacesSound.no_entry_of_empty {s : State} {f : Nat} (hs : s.FacesSound)
    (he : (s.faces.face f).state = .empty) : (s.faces.directory.filter fun g => g.face == f) = [] := by
  obtain ⟨-, -, -, -, hopen, -, -⟩ := hs
  rw [List.filter_eq_nil_iff]
  intro g hg hface
  exact hopen g hg (eq_of_beq hface ▸ he)

theorem State.FacesSound.glyphCount_of_empty {s : State} {f : Nat} (hs : s.FacesSound)
    (he : (s.faces.face f).state = .empty) : s.faces.glyphCount f = 0 := by
  rw [FaceStore.glyphCount, hs.no_entry_of_empty he, List.length_nil]

theorem State.FacesSound.blocksInUse_of_empty {s : State} {f : Nat} (hs : s.FacesSound)
    (he : (s.faces.face f).state = .empty) : s.faces.blocksInUse f = 0 := by
  rw [FaceStore.blocksInUse, hs.no_entry_of_empty he, List.map_nil, List.sum_nil]

/-- Settles O31: at its last parameter FACE OPEN acts on the state that `paramsTaken` names, and the checks of R20 leave
the three cases above; the counts are 0 because the directory holds no entry of an EMPTY face. -/
theorem faceOpenChecksInOrder : Obligations.FaceOpenChecksInOrder := by
  intro s ps hs p f bad
  have hexec : exec .faceOpen s = .next (p.faceOpen ps).settleCut := exec_faceOpen_atLastParam hs
  refine ⟨fun hbad => ?_, fun hgood htaken => ?_, fun hgood hempty => ⟨?_, fun hsound => ?_⟩⟩
  · rw [hexec, State.faceOpen_of_bad hbad]
  · rw [hexec, State.faceOpen_of_taken hgood htaken]
  · rw [hexec, State.faceOpen_of_empty hgood hempty]
    rfl
  · exact ⟨hsound.glyphCount_of_empty hempty, hsound.blocksInUse_of_empty hempty⟩

end Sys2Proof.Machine
end

section
/-! PROOF. ID READ (R170): its step at its command byte, and what a byte clocked in shifts out of a reply that has been
given and during a start-up. -/

namespace Sys2Proof.Machine

/-! ### Bytes clocked in -/

/-- During the start-up every byte is discarded, whichever kind it is (R169). -/
theorem exec_byteClockedIn_of_startUp {s : State} (kind : ByteKind) (v : Byte) (hs : s.power.startUp = true) :
    exec (.byteClockedIn kind v) s = .next s.discardByte :=
  congrArg _ (if_pos hs)

/-- Outside the start-up a parameter byte goes to the link. -/
theorem exec_parameterByte {s : State} (v : Byte) (hs : s.power.startUp = false) :
    exec (.byteClockedIn .parameter v) s = .next (s.clockParameter v) :=
  congrArg _ (if_neg (ne_true_of_eq_false hs))

/-- In a reply position whose read no longer waits at its first one, a byte shifts out the reply as it stands, and the
byte's own value is lost (R174). -/
theorem State.clockParameter_of_reply {s : State} (v : Byte) (hf : s.link.framing = .reply)
    (hr : s.link.reply ≠ .waiting) :
    s.clockParameter v =
      s.onLink fun l => { l with miso := s.replyByte.1, reply := s.replyByte.2, selected := true } := by
  simp only [State.clockParameter, hf, State.readAhead_of (.inr hr)]

/-! ### The bytes of a reply that has been given -/

theorem State.replyByte_of_cons {s : State} {b : Byte} {rest : List Byte} (h : s.link.reply = .data (b :: rest)) :
    s.replyByte = (b, .data rest) := by
  simp only [State.replyByte, h]

theorem State.replyByte_of_nil {s : State} (h : s.link.reply = .data []) : s.replyByte = (0, .data []) := by
  simp only [State.replyByte, h]

/-- A byte clocked in a reply position of a given reply shifts out one byte of it and leaves the link in the reply. -/
theorem exec_parameterByte_of_data {s : State} {data left : List Byte} {b : Byte} (v : Byte)
    (hs : s.power.startUp = false) (hf : s.link.framing = .reply) (hr : s.link.reply = .data data)
    (hb : s.replyByte = (b, .data left)) :
    ∃ t, exec (.byteClockedIn .parameter v) s = .next t ∧
      t.link.miso = b ∧ t.link.reply = .data left ∧ t.link.framing = .reply := by
  have hwait : s.link.reply ≠ .waiting := by simp [hr]
  refine ⟨_, exec_parameterByte v hs, ?_⟩
  simp only [State.clockParameter_of_reply v hf hwait, hb, State.onLink_link, hf, and_self]

/-! ### The read itself -/

/-- ID READ changes nothing but its reply. -/
theorem State.idRead_eq (p : State) :
    p.idRead = { p with link := { p.link with
      reply := p.replyIfOpen (.data [0xA5, 0x57, 0x04, 0x60, 0x01]) } } :=
  State.giveReply_eq _ p

/-- ID READ is one of the five commands that SLEEP takes (R167), so that it acts in every power state. -/
theorem exec_idRead_atCommandByte {s : State} (h : s.AtCommandByte .idRead) :
    exec .idRead s = .next s.begun.idRead.settleCut :=
  congrArg _ (State.atCommand_acts State.idRead h (.inr rfl))

/-- Settles O14: at its command byte ID READ gives the dummy byte and the identification in every power state; a reply
position then shifts out the given reply's next byte, or 0x00 once it is used up; and a start-up discards the byte. -/
theorem idReadReturnsTheIdentification : Obligations.IdReadReturnsTheIdentification := by
  refine ⟨fun s h => ?_, fun s v hs hf => ⟨fun b rest hr => ?_, fun hr => ?_⟩, fun s kind v hs => ?_⟩
  · rw [exec_idRead_atCommandByte h, State.idRead_eq]
  · exact exec_parameterByte_of_data v hs hf hr (State.replyByte_of_cons hr)
  · exact exec_parameterByte_of_data v hs hf hr (State.replyByte_of_nil hr)
  · exact ⟨_, exec_byteClockedIn_of_startUp kind v hs, rfl⟩

end Sys2Proof.Machine
end

section
/-! PROOF. STATUS READ (R181): the 18 bytes of its record, and its step at its command byte. -/

namespace Sys2Proof.Machine

/-- The record byte by byte in the order of 11.7: its two-byte fields, the text length and the flags, stand most
significant byte first. -/
theorem State.statusRecord_eq (p : State) :
    p.statusRecord =
      [boolByte p.power.asleep, boolByte p.setter.job.isSome, byteOf p.renderer.list.length,
        boolByte (p.marks.serving.isSome || !p.marks.queue.isEmpty), byteOf p.sched.queue.length,
        byteOf p.sched.drivingCount, p.supply.state.code, byteOf p.drive.band, boolByte p.drive.usable,
        boolByte p.sched.panelKnown, boolByte p.sched.inverted, boolByte p.sched.blank,
        byteOf (p.setter.text.length / 256), byteOf p.setter.text.length,
        p.link.lastRefusal.code, p.link.lastRefusal.reason,
        byteOf (p.events.flags.toNat / 256), byteOf p.events.flags.toNat] := by
  simp only [State.statusRecord, Power.readsSleep, twoBytes, List.cons_append, List.nil_append]

/-- STATUS READ changes nothing but its reply. -/
theorem State.statusRead_eq (p : State) :
    p.statusRead = { p with link := { p.link with
      reply := p.replyIfOpen (.data (0xA5 :: p.statusRecord)) } } :=
  State.giveReply_eq _ p

/-- STATUS READ is one of the five commands that SLEEP takes (R167), so that it acts in every power state. -/
theorem exec_statusRead_atCommandByte {s : State} (h : s.AtCommandByte .statusRead) :
    exec .statusRead s = .next s.begun.statusRead.settleCut :=
  congrArg _ (State.atCommand_acts State.statusRead h (.inr rfl))

/-- Settles O15: at its command byte STATUS READ acts in every power state and changes its reply alone; the record it
gives has the statement's bytes, of which two, the supply state's and the temperature's, go case by case. -/
theorem statusReadReturnsTheRecord : Obligations.StatusReadReturnsTheRecord := by
  intro s h p yes supply record
  have hsupply : p.supply.state.code = supply := by
    unfold supply
    cases p.supply.state <;> rfl
  have husable : p.drive.usable = match p.drive.reading with
      | none => false
      | some t => p.drive.bands.tmin ≤ t && t ≤ p.drive.bands.tmax := by
    unfold PanelDrive.usable
    cases p.drive.reading <;> rfl
  have hrecord : p.statusRecord = record := by
    rw [State.statusRecord_eq, hsupply, husable]
    rfl
  rw [exec_statusRead_atCommandByte h, State.statusRead_eq, ← hrecord]

end Sys2Proof.Machine
end

section
/-! PROOF. What one row can change on the panel's side: a scan, a request, an abort and a settle as chains of elementary
changes, each of which says what it needs. -/

namespace Sys2Proof.Machine

open Relation (ReflTransGen)

/-! ### The queue that a request and a repair leave -/

/-- The pending queue once a request that is not a REPAIR is taken (R118, R119). -/
def queueTaking (r : Request) (q : List Request) : List Request :=
  match mergeYoungest r q with
  | some q' => q'
  | none => if q.length < Config.pendingLimit then q ++ [r] else squeezeYoungest r q

theorem State.takeRequest_eq (r : Request) (s : State) :
    ∃ e, s.takeRequest r = { s with sched := { s.sched with queue := queueTaking r s.sched.queue }, events := e } := by
  unfold State.takeRequest queueTaking
  cases mergeYoungest r s.sched.queue with
  | some q => exact ⟨s.events, rfl⟩
  | none =>
    by_cases h : s.sched.queue.length < Config.pendingLimit
    · exact ⟨s.events, by simp only [if_pos h]⟩
    · exact ⟨(s.raise .queueSqueeze).events, by simp only [if_neg h]; rfl⟩

theorem mergeYoungest_length {r : Request} {q q' : List Request} (h : mergeYoungest r q = some q') :
    q'.length = q.length := by
  induction q generalizing q' with
  | nil => simp [mergeYoungest] at h
  | cons e rest ih =>
    unfold mergeYoungest at h
    split at h
    · next rest' hr =>
      cases h
      simp [ih hr]
    · split at h
      · cases h
        rfl
      · cases h

theorem squeezeYoungest_length (r : Request) (q : List Request) : (squeezeYoungest r q).length ≤ max 1 q.length := by
  induction q with
  | nil => exact Nat.le_refl 1
  | cons e rest ih =>
    cases rest with
    | nil => exact Nat.le_refl 1
    | cons f rest =>
      simp only [squeezeYoungest, List.length_cons] at ih ⊢
      omega

theorem queueTaking_length (r : Request) (q : List Request) (h : q.length ≤ 16) : (queueTaking r q).length ≤ 16 := by
  unfold queueTaking
  split
  · next hm => rw [mergeYoungest_length hm]; exact h
  · split
    · next hlt => simp only [Config.pendingLimit] at hlt; simp only [List.length_append, List.length_singleton]; omega
    · have := squeezeYoungest_length r q
      omega

/-! ### Rectangles of the panel -/

theorem Rect.panel_onPanel : Rect.panel.onPanel := by
  simp [Rect.onPanel, Rect.panel]

theorem Rect.bounding_onPanel {a b : Rect} (ha : a.onPanel) (hb : b.onPanel) : (a.bounding b).onPanel := by
  unfold Rect.onPanel at *
  simp only [Rect.bounding]
  omega

theorem zoneRect_onPanel {z : Nat} (h : z < 8) : (zoneRect z).onPanel := by
  unfold Rect.onPanel zoneRect
  simp only [Config.zoneRows]
  omega

theorem Rect.zoneUnion_onPanel {r : Rect} (h : r.onPanel) : r.zoneUnion.onPanel := by
  unfold Rect.onPanel Rect.zoneUnion at *
  simp only [Config.zoneRows]
  omega

theorem Request.promote_onPanel {e : Request} (q : Scheduler) (h : e.rect.onPanel) : (e.promote q).rect.onPanel := by
  unfold Request.promote
  split
  · exact h
  · split
    · exact Rect.panel_onPanel
    · split
      · exact Rect.zoneUnion_onPanel h
      · exact h

theorem Template.boxRect_onPanel {t : Template} (ht : t.legal = true) (slot : Nat) :
    (t.boxRect ((t.boxTop slot).getD 0)).onPanel := by
  have hdiv : (t.bodyHeight / t.pitch) * t.pitch ≤ t.bodyHeight := Nat.div_mul_le_self ..
  have hrow : ∀ k, k < t.bodyHeight / t.pitch → (k + 1) * t.pitch ≤ t.bodyHeight := fun k hk =>
    (Nat.mul_le_mul_right _ hk).trans hdiv
  simp only [Template.legal, Bool.and_eq_true, Bool.or_eq_true, decide_eq_true_eq, beq_iff_eq] at ht
  unfold Rect.onPanel Template.boxRect Template.boxTop
  by_cases h : slot ≠ 0 ∧ slot ≤ 208 ∧ slot - 1 < t.bodyHeight / t.pitch
  · have := hrow (slot - 1) h.2.2
    rw [Nat.add_mul] at this
    simp only [if_neg h.1, if_pos h.2.1, if_pos h.2.2, Option.getD_some]
    omega
  · split_ifs <;> simp only [Option.getD_some, Option.getD_none] <;> omega

/-- Every entry's rectangle is one of the panel. -/
def QueueOnPanel (q : List Request) : Prop := ∀ e ∈ q, e.rect.onPanel

theorem mergeYoungest_onPanel {r : Request} (hr : r.rect.onPanel) {q q' : List Request} (hq : QueueOnPanel q)
    (h : mergeYoungest r q = some q') : QueueOnPanel q' := by
  induction q generalizing q' with
  | nil => simp [mergeYoungest] at h
  | cons e rest ih =>
    obtain ⟨he, hrest⟩ := List.forall_mem_cons.1 hq
    unfold mergeYoungest at h
    split at h
    · next rest' hm =>
      cases h
      exact List.forall_mem_cons.2 ⟨he, ih hrest hm⟩
    · split at h
      · cases h
        exact List.forall_mem_cons.2 ⟨Rect.bounding_onPanel he hr, hrest⟩
      · cases h

theorem squeezeYoungest_onPanel {r : Request} (hr : r.rect.onPanel) {q : List Request} (hq : QueueOnPanel q) :
    QueueOnPanel (squeezeYoungest r q) := by
  induction q with
  | nil => exact List.forall_mem_cons.2 ⟨hr, hq⟩
  | cons e rest ih =>
    obtain ⟨he, hrest⟩ := List.forall_mem_cons.1 hq
    cases rest with
    | nil => exact List.forall_mem_cons.2 ⟨Rect.bounding_onPanel he hr, hrest⟩
    | cons f rest => exact List.forall_mem_cons.2 ⟨he, ih hrest⟩

theorem queueTaking_onPanel {r : Request} (hr : r.rect.onPanel) {q : List Request} (hq : QueueOnPanel q) :
    QueueOnPanel (queueTaking r q) := by
  unfold queueTaking
  split
  · next hm => exact mergeYoungest_onPanel hr hq hm
  · split
    · exact List.forall_mem_append.2 ⟨hq, List.forall_mem_cons.2 ⟨hr, by simp⟩⟩
    · exact squeezeYoungest_onPanel hr hq

/-! ### Repairs -/

/-- The queue with room for a REPAIR (R120). -/
def queueWithRoom (q : List Request) : List Request := if q.length < Config.pendingLimit then q else squeezeTail q

/-- The pending queue once a REPAIR is put in (R120). -/
def queueRepairing (before : Nat) (r : Request) (q : List Request) : List Request :=
  (queueWithRoom q).take before ++ r :: (queueWithRoom q).drop before

theorem State.insertRepair_eq (before : Nat) (r : Request) (s : State) :
    ∃ e, s.insertRepair before r =
      { s with sched := { s.sched with queue := queueRepairing before r s.sched.queue }, events := e } := by
  unfold State.insertRepair queueRepairing queueWithRoom
  by_cases h : s.sched.queue.length < Config.pendingLimit
  · exact ⟨s.events, by simp only [if_pos h]⟩
  · exact ⟨(s.raise .queueSqueeze).events, by simp only [if_neg h]; rfl⟩

theorem squeezeTail_length : ∀ q : List Request, (squeezeTail q).length = if 2 ≤ q.length then q.length - 1 else q.length
  | [] => rfl
  | [_] => rfl
  | [_, _] => rfl
  | a :: b :: c :: rest => by
    have := squeezeTail_length (b :: c :: rest)
    simp only [squeezeTail, List.length_cons] at this ⊢
    rw [this]
    split_ifs <;> omega

theorem queueWithRoom_length {q : List Request} (h : q.length ≤ 16) : (queueWithRoom q).length ≤ 15 := by
  unfold queueWithRoom
  simp only [Config.pendingLimit]
  split
  · omega
  · rw [squeezeTail_length]
    split_ifs <;> omega

theorem queueRepairing_length (before : Nat) (r : Request) {q : List Request} (h : q.length ≤ 16) :
    (queueRepairing before r q).length ≤ 16 := by
  have := queueWithRoom_length h
  simp only [queueRepairing, List.length_append, List.length_take, List.length_cons, List.length_drop]
  omega

theorem squeezeTail_onPanel : ∀ {q : List Request}, QueueOnPanel q → QueueOnPanel (squeezeTail q)
  | [], h => h
  | [_], h => h
  | [a, b], h => by
    obtain ⟨ha, hb⟩ := List.forall_mem_cons.1 h
    exact List.forall_mem_cons.2 ⟨Rect.bounding_onPanel ha (hb b (List.mem_cons_self ..)), by simp⟩
  | a :: b :: c :: rest, h => by
    obtain ⟨ha, hrest⟩ := List.forall_mem_cons.1 h
    exact List.forall_mem_cons.2 ⟨ha, squeezeTail_onPanel hrest⟩

theorem queueRepairing_onPanel (before : Nat) {r : Request} (hr : r.rect.onPanel) {q : List Request}
    (hq : QueueOnPanel q) : QueueOnPanel (queueRepairing before r q) := by
  have room : QueueOnPanel (queueWithRoom q) := by
    unfold queueWithRoom
    split
    · exact hq
    · exact squeezeTail_onPanel hq
  exact List.forall_mem_append.2 ⟨fun e he => room e (List.mem_of_mem_take he),
    List.forall_mem_cons.2 ⟨hr, fun e he => room e (List.mem_of_mem_drop he)⟩⟩

/-- The repairs of an abort change the queue and the flags alone. -/
theorem insertRepairs_eq (repairs : List Request) (before : Nat) (s : State) :
    ∃ q e, insertRepairs before repairs s = { s with sched := { s.sched with queue := q }, events := e } ∧
      (s.sched.queue.length ≤ 16 → q.length ≤ 16) ∧
      (QueueOnPanel s.sched.queue → QueueOnPanel repairs → QueueOnPanel q) := by
  induction repairs generalizing before s with
  | nil => exact ⟨s.sched.queue, s.events, rfl, id, fun h _ => h⟩
  | cons r rest ih =>
    obtain ⟨e₁, h₁⟩ := s.insertRepair_eq before r
    obtain ⟨q, e, h, hlen, hrect⟩ := ih (before + 1) (s.insertRepair before r)
    rw [h₁] at h hlen hrect
    refine ⟨q, e, ?_, fun hs => hlen (queueRepairing_length before r hs), fun hs hr => ?_⟩
    · rw [insertRepairs, h₁]
      exact h
    · obtain ⟨hr, hrest⟩ := List.forall_mem_cons.1 hr
      exact hrect (queueRepairing_onPanel before hr hs) hrest

/-! ### DRIVING slots -/

theorem Scheduler.slot_of_ge (q : Scheduler) {i : Nat} (h : 8 ≤ i) : q.slot i = none := look_of_ge _ _ _ h

theorem Scheduler.slot_lt {q : Scheduler} {i : Nat} {d : Driving} (h : q.slot i = some d) : i < 8 := by
  by_contra hi
  rw [q.slot_of_ge (by omega)] at h
  cases h

theorem Scheduler.anyDriving_iff (q : Scheduler) : q.anyDriving = true ↔ ∃ i d, q.slot i = some d := by
  simp only [Scheduler.anyDriving, List.any_eq_true, List.mem_range, Option.isSome_iff_exists]
  exact ⟨fun ⟨i, _, d, h⟩ => ⟨i, d, h⟩, fun ⟨i, d, h⟩ => ⟨i, Scheduler.slot_lt h, d, h⟩⟩

theorem Scheduler.anyDriving_eq_false (q : Scheduler) : q.anyDriving = false ↔ ∀ i, q.slot i = none := by
  rw [← Bool.not_eq_true, q.anyDriving_iff]
  simp only [not_exists]
  exact ⟨fun h i => Option.eq_none_iff_forall_ne_some.2 (h i), fun h i d hd => by simp [h i] at hd⟩

theorem Scheduler.freeSlot_some {q : Scheduler} {i : Nat} (h : q.freeSlot = some i) : i < 8 ∧ q.slot i = none := by
  have hm := List.mem_of_find?_eq_some h
  have hp := List.find?_some h
  simp only [Option.isNone_iff_eq_none] at hp
  exact ⟨List.mem_range.1 hm, hp⟩

theorem Scheduler.repairs_onPanel {q : Scheduler} (h : ∀ i d, q.slot i = some d → d.rect.onPanel) :
    QueueOnPanel q.repairs := by
  intro r hr
  obtain ⟨i, _, hi⟩ := List.mem_filterMap.1 hr
  obtain ⟨d, hd, rfl⟩ := Option.map_eq_some_iff.1 hi
  exact h i d hd

theorem Scheduler.repairs_eq_nil {q : Scheduler} (h : q.repairs = []) : q.anyDriving = false := by
  rw [q.anyDriving_eq_false]
  intro i
  by_contra hne
  obtain ⟨d, hd⟩ := Option.ne_none_iff_exists'.1 hne
  refine List.not_mem_nil (h ▸ List.mem_filterMap.2 ⟨i, List.mem_range.2 (Scheduler.slot_lt hd), ?_⟩ :
    (⟨d.rect, .clean, .repair, false⟩ : Request) ∈ [])
  rw [hd]
  rfl

/-! ### Elementary changes -/

/-- The rows at which the supply can fail and every DRIVING slot is aborted (R161, R162). -/
def AbortsSlots (c : Instr) : Prop := c = .pgoodFall ∨ c = .filterTimerExpiry ∨ c = .powerUpTimerExpiry

/-- One elementary change on the panel's side that the row `c` can make, with what it needs: a scheduler that has work
to do or whose timers rest before the queue changes, a supply that is ON before a slot starts, and so on. -/
inductive State.PanelMove (c : Instr) : State → State → Prop
  | events (s : State) (e : Events) : PanelMove c s { s with events := e }
  | holds (s : State) (temp wave : Bool) :
    PanelMove c s { s with sched := { s.sched with tempHold := temp, waveHold := wave } }
  | display (s : State) (inverted blank : Bool) (settings : SchedSettings) :
    PanelMove c s { s with sched := { s.sched with inverted := inverted, blank := blank, settings := settings } }
  | coarse (s : State) (flags : Vector Bool 8) : PanelMove c s { s with sched := { s.sched with coarse := flags } }
  | settle (s : State) (n : Option Nat) (h : n = none ∨ (s.sched.anyDriving = false ∧ s.sched.queue = [])) :
    PanelMove c s { s with sched := { s.sched with settle := n } }
  | queue (s : State) (q : List Request)
    (hq : s.sched.queue ≠ [] ∨ q = [] ∨ (s.sched.settle = none ∧ s.supply.idle = none))
    (hlen : s.sched.queue.length ≤ 16 → q.length ≤ 16) (hrect : s.RectsOnPanel → QueueOnPanel q) :
    PanelMove c s { s with sched := { s.sched with queue := q } }
  | supply (s : State) (p : Supply)
    (hon : p.state ≠ .on → s.supply.state ≠ .on ∨ s.sched.anyDriving = false ∨ s.supply.idle ≠ none)
    (hidle : p.idle = none ∨ p.idle = s.supply.idle ∨ (s.sched.anyDriving = false ∧ s.sched.queue = []) ∨
      s.sched.settle ≠ none) :
    PanelMove c s { s with supply := p }
  | drive (s : State) (d : PanelDrive) (hf : d.frame = s.drive.frame) (hd : d.driven = s.drive.driven) :
    PanelMove c s { s with drive := d }
  | start (s : State) (i : Nat) (e : Request) (hi : i < 8) (hfree : s.sched.slot i = none) (hq : s.sched.queue ≠ [])
    (hon : s.supply.state = .on) (hclear : s.sched.meetsDriving e.rect = false)
    (hrect : s.RectsOnPanel → e.rect.onPanel) : PanelMove c s (s.startIn i e)
  | complete (s : State) (i : Nat) (d : Driving) (hc : c = .frameEnd) (hd : s.sched.slot i = some d) :
    PanelMove c s (s.completeSlot i d)
  | slot (s : State) (i : Nat) (d e : Driving) (hc : c = .frameEnd) (hd : s.sched.slot i = some d)
    (he : e.rect = d.rect) : PanelMove c s { s with sched := { s.sched with slots := put s.sched.slots i (some e) } }
  | driven (s : State) (p : Points Drive) (hc : c = .frameEnd)
    (hp : s.Canonical → Points.wf Drive.hold p = true) : PanelMove c s { s with drive := { s.drive with driven := p } }
  | frame (s : State) (n : Option Nat) (hc : c = .frameEnd) : PanelMove c s { s with drive := { s.drive with frame := n } }
  | abort (s : State) (q : List Request) (p : Supply) (hc : AbortsSlots c) (hp : p.idle = none)
    (hlen : s.sched.queue.length ≤ 16 → q.length ≤ 16) (hrect : s.RectsOnPanel → QueueOnPanel q) :
    PanelMove c s { s with
      supply := p
      sched := { s.sched with queue := q, slots := Vector.replicate 8 none, settle := none }
      drive := { s.drive with frame := none } }

theorem State.PanelMove.panelOnly {c : Instr} {s t : State} (h : s.PanelMove c t) : s.PanelOnly t := by
  cases h <;> exact ⟨rfl, rfl, rfl, rfl, rfl, rfl, rfl, rfl, rfl, rfl, rfl⟩

/-- A chain of elementary changes on the panel's side. -/
abbrev State.PanelMoves (c : Instr) (s t : State) : Prop := ReflTransGen (State.PanelMove c) s t

theorem State.PanelMoves.panelOnly {c : Instr} {s t : State} (h : s.PanelMoves c t) : s.PanelOnly t := by
  induction h with
  | refl => exact .refl s
  | tail _ h ih => exact ih.trans h.panelOnly

/-- A change on the panel's side does not see the renderer. -/
theorem State.PanelMove.withRenderer {c : Instr} {s t : State} (r : Renderer) (h : s.PanelMove c t) :
    State.PanelMove c { s with renderer := r } { t with renderer := r } := by
  cases h with
  | events e => exact .events _ e
  | holds temp wave => exact .holds _ temp wave
  | display inverted blank settings => exact .display _ inverted blank settings
  | coarse flags => exact .coarse _ flags
  | settle n h => exact .settle _ n h
  | queue q hq hlen hrect => exact .queue _ q hq hlen hrect
  | supply p hon hidle => exact .supply _ p hon hidle
  | drive d hf hd => exact .drive _ d hf hd
  | start i e hi hfree hq hon hclear hrect => exact .start _ i e hi hfree hq hon hclear hrect
  | complete i d hc hd => exact .complete _ i d hc hd
  | slot i d e hc hd he => exact .slot _ i d e hc hd he
  | driven p hc hp => exact .driven _ p hc hp
  | frame n hc => exact .frame _ n hc
  | abort q p hc hp hlen hrect => exact .abort _ q p hc hp hlen hrect

theorem State.PanelMoves.withRenderer {c : Instr} {s t : State} (r : Renderer) (h : s.PanelMoves c t) :
    State.PanelMoves c { s with renderer := r } { t with renderer := r } := by
  induction h with
  | refl => exact .refl
  | tail _ h ih => exact ih.tail (h.withRenderer r)

/-! ### A scan -/

theorem State.holdForWave_moves (c : Instr) (s : State) : s.PanelMoves c s.holdForWave := by
  unfold State.holdForWave
  split
  · exact .refl
  · exact (ReflTransGen.single (.holds s s.sched.tempHold true)).tail (.events _ _)

theorem State.holdForWave_keeps (s : State) :
    s.holdForWave.sched.queue = s.sched.queue ∧ s.holdForWave.supply = s.supply := by
  unfold State.holdForWave
  split <;> exact ⟨rfl, rfl⟩

theorem Scheduler.blocked_eq_false {q : Scheduler} {older : List Request} {r : Rect} (h : q.blocked older r = false) :
    q.meetsDriving r = false ∧ ∀ e ∈ older, r.intersects e.rect = false := by
  simpa only [Scheduler.blocked, Bool.or_eq_false_iff, List.any_eq_false, Bool.not_eq_true] using h

/-- Judging the entries is a chain of starts, with the queue as it was until its end: what is judged (`entries`) are
entries of that queue, what is left behind (`older`) are entries or their promotions. -/
theorem scanEntries_moves (c : Instr) (entries older : List Request) (want : Bool) (s : State)
    (hon : s.supply.state = .on) (hne : s.sched.queue ≠ []) (hsub : ∀ e ∈ entries, e ∈ s.sched.queue)
    (hold : QueueOnPanel s.sched.queue → QueueOnPanel older)
    (hlen : older.length + entries.length ≤ s.sched.queue.length) :
    s.PanelMoves c (scanEntries older entries want s) := by
  induction entries generalizing older want s with
  | nil =>
    have hq : s.PanelMove c { s with sched := { s.sched with queue := older } } :=
      .queue s older (.inl hne) (fun h => by simp only [List.length_nil] at hlen; omega) fun h => hold h.1
    exact (ReflTransGen.single hq).tail (.holds _ s.sched.tempHold _)
  | cons e rest ih =>
    obtain ⟨he, hrest⟩ := List.forall_mem_cons.1 hsub
    have left : ∀ e' : Request, (e'.rect = e.rect ∨ e' = e.promote s.sched) →
        (QueueOnPanel s.sched.queue → QueueOnPanel (older ++ [e'])) ∧
          (older ++ [e']).length + rest.length ≤ s.sched.queue.length := by
      refine fun e' he' => ⟨fun hq => List.forall_mem_append.2 ⟨hold hq, List.forall_mem_cons.2 ⟨?_, by simp⟩⟩, ?_⟩
      · rcases he' with h | rfl
        · exact h ▸ hq e he
        · exact Request.promote_onPanel _ (hq e he)
      · simp only [List.length_append, List.length_cons, List.length_nil] at hlen ⊢
        omega
    have keeps := s.holdForWave_keeps
    have wanting : ∀ e' : Request, (e'.rect = e.rect ∨ e' = e.promote s.sched) →
        s.PanelMoves c (scanEntries (older ++ [e']) rest true s.holdForWave) := fun e' he' =>
      (s.holdForWave_moves c).trans (ih _ _ _ (keeps.2 ▸ hon) (keeps.1 ▸ hne) (keeps.1 ▸ hrest)
        (keeps.1 ▸ (left e' he').1) (keeps.1 ▸ (left e' he').2))
    unfold scanEntries
    split
    · refine .single (.queue s _ (.inl hne) (fun h => ?_) fun h => ?_)
      · simp only [List.length_append, List.length_cons] at hlen ⊢
        omega
      · exact List.forall_mem_append.2 ⟨hold h.1, fun e he => h.1 e (hsub e he)⟩
    · next i hi =>
      split
      · exact ih _ _ _ hon hne hrest (left e (.inl rfl)).1 (left e (.inl rfl)).2
      · next hblocked =>
        split
        · exact wanting e (.inl rfl)
        · unfold State.latch
          simp only
          split
          · next hsplit =>
            split at hsplit
            · cases hsplit
            · next hfar =>
              split at hsplit
              · cases hsplit
              · next m hm =>
                cases hsplit
                obtain ⟨hlt, hfree⟩ := Scheduler.freeSlot_some hi
                have hclear : s.sched.meetsDriving (e.promote s.sched).rect = false := by
                  simp only [not_and, Bool.not_eq_true] at hfar hblocked
                  by_cases heq : (e.promote s.sched).rect = e.rect
                  · exact heq ▸ (Scheduler.blocked_eq_false hblocked).1
                  · exact (Scheduler.blocked_eq_false (hfar heq)).1
                refine ReflTransGen.head (.start s i { e.promote s.sched with mode := m } hlt hfree hne hon hclear
                  fun h => Request.promote_onPanel _ (h.1 e he)) (ih _ _ _ hon hne hrest hold ?_)
                simp only [List.length_cons] at hlen
                show older.length + rest.length ≤ s.sched.queue.length
                omega
          · next e' hsplit =>
            have he' : e' = e.promote s.sched := by
              split at hsplit
              · exact (Latched.left.inj hsplit).1.symm
              · split at hsplit
                · exact (Latched.left.inj hsplit).1.symm
                · cases hsplit
            exact ih _ _ _ hon hne hrest (left e' (.inr he')).1 (left e' (.inr he')).2
          · next e' hsplit =>
            have he' : e' = e.promote s.sched := by
              split at hsplit
              · exact (Latched.left.inj hsplit).1.symm
              · split at hsplit
                · exact (Latched.left.inj hsplit).1.symm
                · cases hsplit
            exact wanting e' (.inr he')

theorem State.judgeEntries_moves (c : Instr) (s : State) (hon : s.supply.state = .on) (hne : s.sched.queue ≠ []) :
    s.PanelMoves c s.judgeEntries :=
  scanEntries_moves c _ [] false s hon hne (fun _ h => h) (fun _ => by simp [QueueOnPanel]) (by simp)

theorem State.askPower_moves (c : Instr) (s : State) (hoff : s.supply.state = .off) (hne : s.sched.queue ≠ []) :
    s.PanelMoves c s.askPower := by
  have hsup : ∀ p : Supply, p.idle = s.supply.idle → s.PanelMove c { s with supply := p } := fun p hp =>
    .supply s p (fun _ => .inl (by simp [hoff])) (.inr (.inl hp))
  unfold State.askPower
  simp only
  split
  · split
    · refine ReflTransGen.head (hsup _ ?_) (State.judgeEntries_moves c _ ?_ ?_)
      · rfl
      · rfl
      · exact hne
    · exact .single (hsup _ rfl)
  · exact .single (hsup _ rfl)

/-- A scan is a chain of elementary changes. -/
theorem State.scan_moves (c : Instr) (s : State) : s.PanelMoves c s.scan := by
  have cool : s.PanelMove c { s with sched := { s.sched with tempHold := false } } := .holds s false s.sched.waveHold
  unfold State.scan
  split
  · exact .single (.holds s false false)
  · next hq =>
    have hne : s.sched.queue ≠ [] := by simpa using hq
    split
    · split
      · exact .refl
      · exact (ReflTransGen.single (.holds s true s.sched.waveHold)).tail (.events _ _)
    · simp only
      split
      · next hon => exact ReflTransGen.head cool (State.judgeEntries_moves c _ hon hne)
      · next hoff => exact ReflTransGen.head cool (State.askPower_moves c _ hoff hne)
      · exact .single cool
      · exact .single cool

/-! ### A request -/

theorem State.cancelQuiet_moves (c : Instr) (s : State) : s.PanelMoves c s.cancelQuiet :=
  ReflTransGen.head (.settle s none (.inl rfl))
    (.single (.supply _ { s.supply with idle := none } (fun h => .inl h) (.inl rfl)))

/-- The queue may change once the settle and idle timers rest. -/
theorem State.cancelQuiet_queue_moves (c : Instr) (s : State) (q : List Request) (e : Events)
    (hlen : s.sched.queue.length ≤ 16 → q.length ≤ 16) (hrect : s.RectsOnPanel → QueueOnPanel q) :
    s.PanelMoves c { s with sched := { s.sched with queue := q }, events := e }.cancelQuiet :=
  ((s.cancelQuiet_moves c).tail (.queue _ q (.inr (.inr ⟨rfl, rfl⟩)) hlen hrect)).tail (.events _ e)

theorem State.post_moves (c : Instr) (r : Request) (s : State) (hr : s.RectsOnPanel → r.rect.onPanel) :
    s.PanelMoves c (s.post r) := by
  unfold State.post
  split
  · exact .refl
  · obtain ⟨e, he⟩ := s.takeRequest_eq r
    rw [he]
    exact (s.cancelQuiet_queue_moves c _ e (queueTaking_length r _) fun h => queueTaking_onPanel (hr h) h.1).trans
      (State.scan_moves c _)

theorem State.tidyZone_moves (c : Instr) (s : State) {z : Nat} (hz : z < 8) : s.PanelMoves c (s.tidyZone z) := by
  unfold State.tidyZone
  split
  · exact ReflTransGen.head (.coarse s _) (State.post_moves c _ _ fun _ => zoneRect_onPanel hz)
  · exact .refl

theorem tidyZones_moves (c : Instr) (zones : List Nat) (hz : ∀ z ∈ zones, z < 8) (s : State) :
    s.PanelMoves c (zones.foldl State.tidyZone s) := by
  induction zones generalizing s with
  | nil => exact .refl
  | cons z rest ih =>
    obtain ⟨h, hrest⟩ := List.forall_mem_cons.1 hz
    exact (s.tidyZone_moves c h).trans (ih hrest _)

/-- The settle timer expires on a panel with nothing driving and nothing pending, or as it runs. -/
theorem State.settleExpires_moves (c : Instr) (s : State)
    (h : (s.sched.anyDriving = false ∧ s.sched.queue = []) ∨ s.sched.settle ≠ none) : s.PanelMoves c s.settleExpires := by
  have quiet : s.PanelMoves c
      { s with
        sched := { s.sched with settle := none }
        events := (s.raise .panelQuiet).events
        supply := s.supply.startIdle } := by
    refine ReflTransGen.head (.supply _ s.supply.startIdle (fun hne => .inl ?_) (.inr (.inr h)))
      (ReflTransGen.head (.settle _ none (.inl rfl)) (.single (.events _ (s.raise .panelQuiet).events)))
    intro hon
    apply hne
    unfold Supply.startIdle
    split <;> exact hon
  unfold State.settleExpires
  simp only
  split
  · exact quiet.trans (tidyZones_moves c _ (fun z hz => List.mem_range.1 hz) _)
  · exact quiet

theorem State.startSettle_moves (c : Instr) (s : State) (hd : s.sched.anyDriving = false) (hq : s.sched.queue = []) :
    s.PanelMoves c s.startSettle := by
  unfold State.startSettle
  split
  · exact s.settleExpires_moves c (.inl ⟨hd, hq⟩)
  · exact .single (.settle s _ (.inr ⟨hd, hq⟩))

/-! ### A fault -/

/-- An abort frees every slot, stops the frame, puts the repairs in and scans. -/
theorem State.abortSlots_eq (s : State) (h : s.sched.repairs ≠ []) :
    ∃ q e, s.abortSlots = ({ s with
        sched := { s.sched with queue := q, slots := Vector.replicate 8 none, settle := none }
        supply := { s.supply with idle := none }
        drive := { s.drive with frame := none }
        events := e } : State).scan ∧
      (s.sched.queue.length ≤ 16 → q.length ≤ 16) ∧
      (QueueOnPanel s.sched.queue → QueueOnPanel s.sched.repairs → QueueOnPanel q) := by
  obtain ⟨q, e, heq, hlen, hrect⟩ := insertRepairs_eq s.sched.repairs 0
    { s with
      sched := { s.sched with slots := Vector.replicate 8 none }
      drive := { s.drive with frame := none } }
  refine ⟨q, e, ?_, hlen, hrect⟩
  unfold State.abortSlots
  split
  · next hnone => exact absurd hnone h
  · simp only
    rw [heq]
    rfl

/-- A supply that fails aborts every DRIVING slot, and the scan that follows judges the repairs. -/
theorem State.enterFault_moves {c : Instr} (hc : AbortsSlots c) (s : State) : s.PanelMoves c s.enterFault := by
  by_cases h : s.sched.repairs = []
  · have hd : s.sched.anyDriving = false := Scheduler.repairs_eq_nil h
    have hfault : s.enterFault = ({ s with
        supply := { s.supply with state := .fault, powerUp := none, filter := none, idle := none } } : State).raise
        .supplyFault := by
      simp only [State.enterFault, State.abortSlots, State.raise_sched, h]
    rw [hfault]
    exact ReflTransGen.head (.supply s _ (fun _ => .inr (.inl hd)) (.inl rfl)) (.single (.events _ _))
  · obtain ⟨q, e, heq, hlen, hrect⟩ := State.abortSlots_eq (({ s with
        supply := { s.supply with state := .fault, powerUp := none, filter := none, idle := none } } : State).raise
        .supplyFault) h
    rw [State.enterFault, heq]
    refine ReflTransGen.trans (ReflTransGen.head (.abort s q
      { s.supply with state := .fault, powerUp := none, filter := none, idle := none } hc rfl hlen
        fun hs => hrect hs.1 (Scheduler.repairs_onPanel hs.2.1)) (.single (.events _ e))) (State.scan_moves c _)

theorem State.supplyOn_moves (c : Instr) (s : State) : s.PanelMoves c s.supplyOn :=
  ReflTransGen.head (.supply s s.supply.reachOn (fun h => absurd rfl h) (.inr (.inl rfl))) (State.scan_moves c _)

end Sys2Proof.Machine
end

section
/-! PROOF. The drive port: what the points of two planes zipped over a rectangle read as, and the canonical form that the
frame of a slot keeps. -/

namespace Sys2Proof.Machine

/-- Between two points a plane reads as it did. -/
theorem Points.read_eq_of_no_point {α : Type} (d : α) (p : Points α) {i j : Nat} (hij : i ≤ j)
    (h : ∀ q ∈ p, i < q.1 → j < q.1) : Points.read d p j = Points.read d p i := by
  induction p generalizing d with
  | nil => rfl
  | cons e rest ih =>
    obtain ⟨k, v⟩ := e
    obtain ⟨hk, hrest⟩ := List.forall_mem_cons.1 h
    simp only at hk
    simp only [Points.read]
    rw [ih v hrest]
    by_cases hi : i < k
    · rw [if_pos hi, if_pos (hk hi)]
    · rw [if_neg hi, if_neg (by omega)]

/-- Points made from a function that changes at the keys alone read as the function. -/
theorem Points.read_keys {β : Type} (g : Nat → β) (e : β) (k₀ : Nat) (keys : List Nat)
    (hr : (k₀ :: keys).Pairwise (· < ·)) (hg : ∀ i j, k₀ ≤ i → i ≤ j → (∀ k ∈ keys, i < k → j < k) → g j = g i)
    (i : Nat) (hi : k₀ ≤ i) :
    Points.read e ((k₀, g k₀) :: keys.map fun k => (k, g k)) i = g i := by
  induction keys generalizing k₀ e with
  | nil =>
    simp only [Points.read, List.map_nil, if_neg (Nat.not_lt.2 hi)]
    exact (hg k₀ i (Nat.le_refl _) hi (by simp)).symm
  | cons k rest ih =>
    obtain ⟨hk, hrest⟩ := List.pairwise_cons.1 hr
    have hlt := hk k (List.mem_cons_self ..)
    simp only [Points.read, List.map_cons, if_neg (Nat.not_lt.2 hi)]
    by_cases h : i < k
    · rw [if_pos h]
      refine (hg k₀ i (Nat.le_refl _) hi fun j hj _ => ?_).symm
      rcases List.mem_cons.1 hj with rfl | hj
      · exact h
      · exact h.trans ((List.pairwise_cons.1 hrest).1 j hj)
    · have := ih (g k₀) k hrest (fun a b ha hab hno => hg a b (hlt.le.trans ha) hab fun j hj hlt' => by
        rcases List.mem_cons.1 hj with rfl | hj
        · omega
        · exact hno j hj hlt') (Nat.not_lt.1 h)
      simpa only [Points.read] using this

/-! ### Keys in rising order -/

theorem mem_insertIndex (k j : Nat) (ks : List Nat) : j ∈ insertIndex k ks ↔ j = k ∨ j ∈ ks := by
  induction ks with
  | nil => simp [insertIndex]
  | cons a rest ih =>
    unfold insertIndex
    split
    · simp
    · split
      · next h => simp [h]
      · simp only [List.mem_cons, ih]
        tauto

theorem insertIndex_rising (k : Nat) {ks : List Nat} (h : ks.Pairwise (· < ·)) : (insertIndex k ks).Pairwise (· < ·) := by
  induction ks with
  | nil => exact List.pairwise_singleton ..
  | cons a rest ih =>
    obtain ⟨ha, hrest⟩ := List.pairwise_cons.1 h
    unfold insertIndex
    split
    · next hlt =>
      refine List.pairwise_cons.2 ⟨fun j hj => ?_, h⟩
      rcases List.mem_cons.1 hj with rfl | hj
      · exact hlt
      · exact hlt.trans (ha j hj)
    · split
      · exact h
      · refine List.pairwise_cons.2 ⟨fun j hj => ?_, ih hrest⟩
        rcases (mem_insertIndex ..).1 hj with rfl | hj
        · omega
        · exact ha j hj

/-- The keys at which two planes change, put together. -/
theorem insertKeys {β : Type} (b : Points β) (ks : List Nat) (h : ks.Pairwise (· < ·)) :
    (b.foldr (fun q ks => insertIndex q.1 ks) ks).Pairwise (· < ·) ∧
      ∀ j, j ∈ b.foldr (fun q ks => insertIndex q.1 ks) ks ↔ j ∈ ks ∨ ∃ q ∈ b, q.1 = j := by
  induction b with
  | nil => exact ⟨h, fun j => by simp⟩
  | cons q rest ih =>
    obtain ⟨hr, hm⟩ := ih
    refine ⟨insertIndex_rising _ hr, fun j => ?_⟩
    simp only [List.foldr_cons, mem_insertIndex, hm, List.mem_cons]
    constructor
    · rintro (rfl | h | ⟨e, he, rfl⟩)
      · exact .inr ⟨q, .inl rfl, rfl⟩
      · exact .inl h
      · exact .inr ⟨e, .inr he, rfl⟩
    · rintro (h | ⟨e, rfl | he, rfl⟩)
      · exact .inr (.inl h)
      · exact .inl rfl
      · exact .inr (.inr ⟨e, he, rfl⟩)

theorem Points.mem_between {α : Type} {p : Points α} {lo hi : Nat} {q : Nat × α} :
    q ∈ p.between lo hi ↔ q ∈ p ∧ lo < q.1 ∧ q.1 < hi := by
  simp [Points.between]

section
variable {α β γ : Type} (f : α → β → γ) (da : α) (db : β) {a : Points α} {b : Points β} {lo hi : Nat}

/-- The keys of a zipped range: the points of the two planes within it. -/
def zipKeys (a : Points α) (b : Points β) (lo hi : Nat) : List Nat :=
  (b.between lo hi).foldr (fun q ks => insertIndex q.1 ks) ((a.between lo hi).map Prod.fst)

theorem zipKeys_rising (ha : a.Rising) : (lo :: zipKeys a b lo hi).Pairwise (· < ·) ∧
    ∀ k, k ∈ zipKeys a b lo hi ↔ lo < k ∧ k < hi ∧ ((∃ v, (k, v) ∈ a) ∨ ∃ v, (k, v) ∈ b) := by
  have hks : ((a.between lo hi).map Prod.fst).Pairwise (· < ·) :=
    List.pairwise_map.2 (ha.sublist List.filter_sublist)
  obtain ⟨hr, hm⟩ := insertKeys (b.between lo hi) _ hks
  have hmem : ∀ k, k ∈ zipKeys a b lo hi ↔ lo < k ∧ k < hi ∧ ((∃ v, (k, v) ∈ a) ∨ ∃ v, (k, v) ∈ b) := by
    intro k
    simp only [zipKeys, hm, List.mem_map, Points.mem_between, Prod.exists]
    constructor
    · rintro (⟨j, v, ⟨h, h1, h2⟩, rfl⟩ | ⟨j, v, ⟨h, h1, h2⟩, rfl⟩)
      · exact ⟨h1, h2, .inl ⟨v, h⟩⟩
      · exact ⟨h1, h2, .inr ⟨v, h⟩⟩
    · rintro ⟨h1, h2, ⟨v, h⟩ | ⟨v, h⟩⟩
      · exact .inl ⟨k, v, ⟨h, h1, h2⟩, rfl⟩
      · exact .inr ⟨k, v, ⟨h, h1, h2⟩, rfl⟩
  exact ⟨List.pairwise_cons.2 ⟨fun k hk => ((hmem k).1 hk).1, hr⟩, hmem⟩

theorem Points.zipped_covers (ha : a.Rising) (h : lo < hi) : (Points.zipped f da db a b lo hi).Covers lo hi := by
  obtain ⟨hr, hm⟩ := zipKeys_rising (b := b) (lo := lo) (hi := hi) ha
  obtain ⟨hlo, hr⟩ := List.pairwise_cons.1 hr
  refine ⟨_, _, rfl, List.pairwise_cons.2 ⟨?_, List.pairwise_map.2 hr⟩, ?_⟩
  · intro e he
    obtain ⟨k, hk, rfl⟩ := List.mem_map.1 he
    exact hlo k hk
  · intro e he
    rcases List.mem_cons.1 he with rfl | he
    · exact h
    · obtain ⟨k, hk, rfl⟩ := List.mem_map.1 he
      exact ((hm k).1 hk).2.1

/-- Two planes zipped over a range read as the function of what the two read. -/
theorem Points.read_zipped (e : γ) (ha : a.Rising) {i : Nat} (h : lo ≤ i) (h' : i < hi) :
    Points.read e (Points.zipped f da db a b lo hi) i = f (Points.read da a i) (Points.read db b i) := by
  obtain ⟨hr, hm⟩ := zipKeys_rising (b := b) (lo := lo) (hi := hi) ha
  -- Beyond `hi` the keys say nothing, so the planes are read at most at `hi - 1`.
  have := Points.read_keys (fun k => f (Points.read da a (min k (hi - 1))) (Points.read db b (min k (hi - 1)))) e lo
    (zipKeys a b lo hi) hr ?_ i h
  · have hmin : ∀ k, k < hi → min k (hi - 1) = k := fun k hk => by omega
    simp only [hmin i h', hmin lo (by omega)] at this
    rw [← this]
    simp only [Points.zipped]
    congr 1
    refine congrArg _ (List.map_congr_left fun k hk => ?_)
    rw [hmin k ((hm k).1 hk).2.1]
  · intro x y hx hxy hno
    have none : ∀ k, lo < k → ((∃ v, (k, v) ∈ a) ∨ ∃ v, (k, v) ∈ b) → min x (hi - 1) < k → min y (hi - 1) < k := by
      intro k hlo hpt hk
      by_cases hkh : k < hi
      · have := hno k ((hm k).2 ⟨hlo, hkh, hpt⟩) (by omega)
        omega
      · omega
    have hxy' : min x (hi - 1) ≤ min y (hi - 1) := by omega
    have hlo' : lo ≤ min x (hi - 1) := by omega
    show f _ _ = f _ _
    rw [Points.read_eq_of_no_point da a hxy' fun q hq hlt => none q.1 (by omega) (.inl ⟨q.2, hq⟩) hlt,
      Points.read_eq_of_no_point db b hxy' fun q hq hlt => none q.1 (by omega) (.inr ⟨q.2, hq⟩) hlt]

end

/-- The drive port spliced over a list of ranges: canonical, and read range by range. -/
theorem drivePixels_ranges (f : Level → Level → Drive) {current goal : Plane} (hc : current.wf = true)
    (ranges : List (Nat × Nat)) (p : Points Drive) (hp : Points.wf Drive.hold p = true) :
    let q := ranges.foldl
      (fun q e => Points.splice .hold q (Points.zipped f white white current goal e.1 e.2) e.1 e.2) p
    Points.wf Drive.hold q = true ∧ ∀ i, Points.read Drive.hold q i =
      if (∃ e ∈ ranges, e.1 ≤ i ∧ i < e.2) then f (Points.read white current i) (Points.read white goal i)
      else Points.read Drive.hold p i := by
  have hr := Points.wf_rising hc
  induction ranges generalizing p with
  | nil => exact ⟨hp, fun i => by simp⟩
  | cons e rest ih =>
    have hcov : e.1 < e.2 → (Points.zipped f white white current goal e.1 e.2).Covers e.1 e.2 :=
      Points.zipped_covers f white white hr
    obtain ⟨h1, h2⟩ := ih _ (Points.splice_wf Drive.hold p _ e.1 e.2 hp hcov)
    refine ⟨h1, fun i => ?_⟩
    simp only [List.foldl_cons]
    rw [h2 i, Points.read_splice Drive.hold p _ e.1 e.2 i hp hcov]
    by_cases h : ∃ e ∈ rest, e.1 ≤ i ∧ i < e.2
    · obtain ⟨g, hg, h'⟩ := h
      rw [if_pos ⟨g, hg, h'⟩, if_pos ⟨g, List.mem_cons_of_mem _ hg, h'⟩]
    · rw [if_neg h]
      by_cases h' : e.1 ≤ i ∧ i < e.2
      · rw [if_pos h', if_pos ⟨e, List.mem_cons_self .., h'⟩, Points.read_zipped f white white _ hr h'.1 h'.2]
      · rw [if_neg h', if_neg]
        rintro ⟨g, hg, hg'⟩
        rcases List.mem_cons.1 hg with rfl | hg
        · exact h' hg'
        · exact h ⟨g, hg, hg'⟩

/-- The frame of a slot keeps the canonical form of the drive port. -/
theorem drivePixels_wf (f : Level → Level → Drive) {current goal : Plane} (r : Rect) {p : Points Drive}
    (hc : current.wf = true) (hp : Points.wf Drive.hold p = true) :
    Points.wf Drive.hold (drivePixels f current goal r p) = true :=
  (drivePixels_ranges f hc r.ranges p hp).1

/-- In its rectangle the drive port takes `f` of the two levels, and elsewhere it stays. -/
theorem drivePixels_read (f : Level → Level → Drive) {current goal : Plane} {r : Rect} {p : Points Drive}
    (hc : current.wf = true) (hp : Points.wf Drive.hold p = true) (hr : r.onPanel) {x y : Nat} (hx : x < 1248) :
    Points.read Drive.hold (drivePixels f current goal r p) (pixelIndex x y) =
      if r.holds x y = true then f (current.level x y) (goal.level x y)
      else Points.read Drive.hold p (pixelIndex x y) := by
  obtain ⟨h1, h2, h3, _⟩ := hr
  simp only [drivePixels]
  rw [(drivePixels_ranges f hc r.ranges p hp).2]
  simp only [Rect.ranges_hold r x y h1 h2 h3 hx]
  rfl

end Sys2Proof.Machine
end

section
/-! PROOF. A frame end as a chain of elementary changes, and the laws of the scheduler and of the panel's supply that every
elementary change keeps. -/

namespace Sys2Proof.Machine

open Relation (ReflTransGen)

/-! ### Frame ends -/

theorem State.completion_moves {s : State} {i : Nat} {d : Driving} (hd : s.sched.slot i = some d) :
    s.PanelMoves .frameEnd (s.completion i d) := by
  have first : s.PanelMoves .frameEnd (s.completeSlot i d).scan :=
    ReflTransGen.head (.complete s i d rfl hd) (State.scan_moves .frameEnd _)
  unfold State.completion
  simp only
  split
  · next h =>
    simp only [Bool.and_eq_true, Bool.not_eq_true', List.isEmpty_iff] at h
    exact first.trans (State.startSettle_moves .frameEnd _ h.1 h.2)
  · exact first

theorem State.driveSlot_moves (s : State) (i : Nat) : s.PanelMoves .frameEnd (s.driveSlot i) := by
  unfold State.driveSlot
  split
  · exact .refl
  · next d hd =>
    have counted : s.PanelMoves .frameEnd { s with
        drive := { s.drive with driven :=
          (drivePixels (pixelDrive (s.drive.table d.mode d.band) d) s.image.current s.image.goal d.rect s.drive.driven) }
        sched := { s.sched with slots := put s.sched.slots i (some { d with count := d.count + 1 }) } } :=
      ReflTransGen.head (.driven s _ rfl fun h => drivePixels_wf _ _ h.2.1 h.2.2.2.1)
        (.single (.slot _ i d { d with count := d.count + 1 } rfl hd rfl))
    simp only
    split
    · exact counted.trans (State.completion_moves (look_put_self _ _ _ _ (Scheduler.slot_lt hd)))
    · exact counted

theorem State.enrol_moves (s : State) (i : Nat) : s.PanelMoves .frameEnd (s.enrol i) := by
  unfold State.enrol
  split
  · exact .refl
  · next d hd => exact .single (.slot s i d { d with enrolled := true } rfl hd rfl)

/-- What each step of a fold is a chain of, the fold is a chain of. -/
theorem foldl_moves {c : Instr} {f : State → Nat → State} (hf : ∀ (s : State) (i : Nat), s.PanelMoves c (f s i)) (l : List Nat) (s : State) :
    s.PanelMoves c (l.foldl f s) := by
  induction l generalizing s with
  | nil => exact .refl
  | cons i rest ih => exact (hf s i).trans (ih _)

theorem State.frameEnds_moves (s : State) : s.PanelMoves .frameEnd s.frameEnds :=
  ReflTransGen.head (.driven s [] rfl fun _ => rfl)
    (((foldl_moves State.driveSlot_moves _ _).trans (foldl_moves State.enrol_moves _ _)).tail (.frame _ _ rfl))

/-! ### The laws that elementary changes keep -/

/-- A law of the panel's side, kept by every elementary change. -/
abbrev KeptByPanel (P : State → Prop) : Prop := ∀ (c : Instr) (s t : State), s.PanelMove c t → P s → P t

theorem KeptByPanel.moves {P : State → Prop} (h : KeptByPanel P) {c : Instr} {s t : State} (hm : s.PanelMoves c t) :
    P s → P t := by
  intro hs
  induction hm with
  | refl => exact hs
  | tail _ hm ih => exact h c _ _ hm ih

/-- The slots after one of them has taken a new content. -/
theorem slot_put {q : Scheduler} {i j : Nat} {x : Option Driving} :
    look (put q.slots i x) j none = if j = i ∧ i < 8 then x else q.slot j := by
  by_cases hj : j = i
  · subst hj
    by_cases h : j < 8
    · rw [if_pos ⟨rfl, h⟩, look_put_self _ _ _ _ h]
    · rw [if_neg (fun h' => h h'.2), look_of_ge _ _ _ (by omega), q.slot_of_ge (by omega)]
  · rw [if_neg (fun h => hj h.1), look_put_other _ _ _ _ _ hj]
    rfl

/-- Two DRIVING slots share no pixel. -/
def SlotsApart (slot : Nat → Option Driving) : Prop :=
  ∀ i j d e, i < 8 → j < 8 → i ≠ j → slot i = some d → slot j = some e →
    ∀ x y, ¬ (d.rect.holds x y = true ∧ e.rect.holds x y = true)

/-- A table of slots in which every rectangle is one of the old table in its place keeps the slots apart. -/
theorem SlotsApart.mono {f g : Nat → Option Driving} (h : SlotsApart f)
    (hg : ∀ i e, g i = some e → ∃ d, f i = some d ∧ d.rect = e.rect) : SlotsApart g := by
  intro i j d e hi hj hij hd he x y
  obtain ⟨d', hd', rd⟩ := hg i d hd
  obtain ⟨e', he', re⟩ := hg j e he
  exact rd ▸ re ▸ h i j d' e' hi hj hij hd' he' x y

theorem Rect.not_holds_of_not_intersects {a b : Rect} (h : a.intersects b = false) (x y : Nat) :
    ¬ (a.holds x y = true ∧ b.holds x y = true) := by
  simp only [Rect.intersects, Rect.holds, Bool.and_eq_true, decide_eq_true_eq, Bool.and_eq_false_iff,
    decide_eq_false_iff_not] at h ⊢
  omega

theorem Scheduler.meetsDriving_eq_false {q : Scheduler} {r : Rect} (h : q.meetsDriving r = false) {i : Nat} {d : Driving}
    (hd : q.slot i = some d) : r.intersects d.rect = false := by
  simp only [Scheduler.meetsDriving, List.any_eq_false, List.mem_range] at h
  simpa [hd] using h i (Scheduler.slot_lt hd)

theorem schedulerSound_kept : KeptByPanel State.SchedulerSound := by
  rintro c s t hm ⟨hlen, hapart⟩
  have keep : ∀ {i : Nat} {x : Option Driving}, (∀ e, x = some e → ∃ d, s.sched.slot i = some d ∧ d.rect = e.rect) →
      SlotsApart fun j => look (put s.sched.slots i x) j none := by
    intro i x hx
    refine SlotsApart.mono hapart fun j e he => ?_
    rw [slot_put] at he
    split at he
    · next h => exact h.1 ▸ hx e he
    · exact ⟨e, he, rfl⟩
  cases hm with
  | queue q _ hq _ => exact ⟨hq hlen, hapart⟩
  | abort q p _ _ hq _ => exact ⟨hq hlen, fun i j d e _ _ _ hd => by simp [Scheduler.slot] at hd⟩
  | start i e hi hfree _ _ hclear _ =>
    refine ⟨hlen, fun a b d d' ha hb hab hd hd' x y => ?_⟩
    simp only [State.startIn, Scheduler.slot, slot_put] at hd hd'
    have apart := fun {k : Nat} {d : Driving} (hk : s.sched.slot k = some d) =>
      Rect.not_holds_of_not_intersects (Scheduler.meetsDriving_eq_false hclear hk) x y
    split at hd
    · next hia =>
      split at hd'
      · next hib => exact absurd (hia.1.trans hib.1.symm) hab
      · cases hd
        exact apart hd'
    · split at hd'
      · cases hd'
        exact fun h => apart hd h.symm
      · exact hapart a b d d' ha hb hab hd hd' x y
  | complete i d _ hd => exact ⟨hlen, keep fun e he => by cases he⟩
  | slot i d e _ hd he => exact ⟨hlen, keep fun e' he' => by cases he'; exact ⟨d, hd, he.symm⟩⟩
  | events | holds | display | coarse | settle | supply | drive | driven | frame => exact ⟨hlen, hapart⟩

theorem ghostAfter_le (m : Mode) (r : Rect) (z : Nat) {score : Nat} (h : score ≤ 255) : ghostAfter m r z score ≤ 255 := by
  unfold ghostAfter
  cases m <;> simp only <;> split_ifs <;> omega

theorem ghostInRange_kept : KeptByPanel State.GhostInRange := by
  intro c s t hm hs
  cases hm with
  | complete i d _ _ =>
    intro z
    by_cases hz : z < 8
    · simp only [State.completeSlot, State.raise_sched, look_mapPlaces _ _ _ 0 _ hz]
      exact ghostAfter_le _ _ _ (hs z)
    · rw [look_of_ge _ _ _ (by omega)]
      exact Nat.zero_le _
  | events | holds | display | coarse | settle | supply | drive | driven | frame | queue | abort | start | slot =>
    exact hs

theorem rectsOnPanel_kept : KeptByPanel State.RectsOnPanel := by
  rintro c s t hm ⟨hqueue, hslots, hwindow, hlegal⟩
  have hs : s.RectsOnPanel := ⟨hqueue, hslots, hwindow, hlegal⟩
  have keep : ∀ {i : Nat} {x : Option Driving}, (∀ e, x = some e → e.rect.onPanel) →
      ∀ j d, look (put s.sched.slots i x) j none = some d → d.rect.onPanel := by
    intro i x hx j d hd
    rw [slot_put] at hd
    split at hd
    · exact hx d hd
    · exact hslots j d hd
  cases hm with
  | queue q _ _ hq => exact ⟨hq hs, hslots, hwindow, hlegal⟩
  | abort q p _ _ _ hq => exact ⟨hq hs, fun i d hd => by simp [Scheduler.slot] at hd, hwindow, hlegal⟩
  | start i e _ _ _ _ _ hrect => exact ⟨hqueue, keep fun d hd => by cases hd; exact hrect hs, hwindow, hlegal⟩
  | complete i d _ _ =>
    exact ⟨hqueue, keep nofun, hwindow, hlegal⟩
  | slot i d e _ hd he =>
    exact ⟨hqueue, keep fun e' he' => by cases he'; exact he ▸ hslots i d hd, hwindow, hlegal⟩
  | events | holds | display | coarse | settle | supply | drive | driven | frame => exact hs

/-- The planes and the drive port stay in canonical form. -/
theorem canonical_kept : KeptByPanel State.Canonical := by
  rintro c s t hm ⟨htarget, hcurrent, hgoal, hdriven, hpool⟩
  have hs : s.Canonical := ⟨htarget, hcurrent, hgoal, hdriven, hpool⟩
  cases hm with
  | drive d _ hd => exact ⟨htarget, hcurrent, hgoal, hd ▸ hdriven, hpool⟩
  | driven p _ hp => exact ⟨htarget, hcurrent, hgoal, hp hs, hpool⟩
  | start i e =>
    refine ⟨htarget, hcurrent, Plane.copyRect_wf _ _ _ _ htarget hgoal, ?_, hpool⟩
    simp only [State.startIn, PanelDrive.startFrame]
    split <;> exact hdriven
  | complete i d _ _ => exact ⟨htarget, Plane.copyRect_wf _ _ _ _ hgoal hcurrent, hgoal, hdriven, hpool⟩
  | events | holds | display | coarse | settle | queue | supply | slot | frame | abort => exact hs

/-! ### The drive's law -/

/-- The panel is driven only with the supply ON, and the settle and idle timers run only while the panel is quiet. -/
def State.QuietSound (s : State) : Prop :=
  (s.supply.state ≠ .on → s.sched.anyDriving = false) ∧
  (s.sched.settle ≠ none → s.sched.anyDriving = false ∧ s.sched.queue = []) ∧
  (s.supply.idle ≠ none → s.sched.anyDriving = false ∧ s.sched.queue = [])

/-- Frames run only while a slot drives. -/
def State.FrameSound (s : State) : Prop := s.drive.frame ≠ none → s.sched.anyDriving = true

theorem State.driveSound_iff (s : State) : s.DriveSound ↔ s.QuietSound ∧ s.FrameSound := by
  unfold State.DriveSound State.QuietSound State.FrameSound
  tauto

/-- Freeing a slot, or giving a DRIVING one a new content, starts nothing. -/
theorem anyDriving_put {q : Scheduler} {i : Nat} {x : Option Driving} (hx : x ≠ none → q.slot i ≠ none)
    (h : q.anyDriving = false) : Scheduler.anyDriving { q with slots := put q.slots i x } = false := by
  rw [Scheduler.anyDriving_eq_false] at h ⊢
  intro j
  simp only [Scheduler.slot, slot_put]
  split
  · by_contra hne
    exact hx hne (h i)
  · exact h j

theorem anyDriving_put_some {q : Scheduler} {i : Nat} (hi : i < 8) (d : Driving) :
    Scheduler.anyDriving { q with slots := put q.slots i (some d) } = true := by
  rw [Scheduler.anyDriving_iff]
  exact ⟨i, d, look_put_self _ _ _ _ hi⟩

theorem anyDriving_replicate (q : Scheduler) :
    Scheduler.anyDriving { q with slots := Vector.replicate 8 none } = false := by
  rw [Scheduler.anyDriving_eq_false]
  exact fun i => look_replicate ..

theorem quietSound_kept : KeptByPanel State.QuietSound := by
  rintro c s t hm ⟨hon, hsettle, hidle⟩
  have hs : s.QuietSound := ⟨hon, hsettle, hidle⟩
  cases hm with
  | settle n h =>
    refine ⟨hon, fun hn => ?_, hidle⟩
    rcases h with rfl | h
    · exact absurd rfl hn
    · exact h
  | queue q hq _ _ =>
    have still : q ≠ [] → s.sched.settle = none ∧ s.supply.idle = none := by
      intro hne
      rcases hq with hq | rfl | hq
      · exact ⟨by_contra fun h => hq (hsettle h).2, by_contra fun h => hq (hidle h).2⟩
      · exact absurd rfl hne
      · exact hq
    refine ⟨hon, fun h => ⟨(hsettle h).1, ?_⟩, fun h => ⟨(hidle h).1, ?_⟩⟩ <;> by_contra hne
    · exact h (still hne).1
    · exact h (still hne).2
  | supply p hp hi =>
    refine ⟨fun h => ?_, hsettle, fun h => ?_⟩
    · rcases hp h with h | h | h
      · exact hon h
      · exact h
      · exact (hidle h).1
    · rcases hi with hi | hi | hi | hi
      · exact absurd hi h
      · exact hidle (hi ▸ h)
      · exact hi
      · exact hsettle hi
  | start i e hi hfree hq hsup _ _ =>
    refine ⟨fun h => absurd hsup h, fun h => absurd (hsettle h).2 hq, fun h => absurd (hidle h).2 hq⟩
  | complete i d _ hd =>
    exact ⟨fun h => anyDriving_put (fun h => absurd rfl h) (hon h),
      fun h => ⟨anyDriving_put (fun h => absurd rfl h) (hsettle h).1, (hsettle h).2⟩,
      fun h => ⟨anyDriving_put (fun h => absurd rfl h) (hidle h).1, (hidle h).2⟩⟩
  | slot i d e _ hd _ =>
    have hne : some e ≠ none → s.sched.slot i ≠ none := fun _ => by simp [hd]
    exact ⟨fun h => anyDriving_put hne (hon h), fun h => ⟨anyDriving_put hne (hsettle h).1, (hsettle h).2⟩,
      fun h => ⟨anyDriving_put hne (hidle h).1, (hidle h).2⟩⟩
  | abort q p _ hp _ _ =>
    exact ⟨fun _ => anyDriving_replicate s.sched, fun h => absurd rfl h, fun h => absurd hp h⟩
  | events | holds | display | coarse | drive | driven | frame => exact hs

/-- Outside a frame end every elementary change keeps the law of the frame timer. -/
theorem State.PanelMoves.frameSound {c : Instr} (hc : c ≠ .frameEnd) {s t : State} (hm : s.PanelMoves c t) :
    s.FrameSound → t.FrameSound := by
  intro hs
  induction hm with
  | refl => exact hs
  | tail _ hm ih =>
    cases hm with
    | drive d hf _ => exact fun h => ih (hf ▸ h)
    | start i e hi => exact fun _ => anyDriving_put_some hi _
    | complete _ _ h => exact absurd h hc
    | slot _ _ _ h => exact absurd h hc
    | driven _ h => exact absurd h hc
    | frame _ h => exact absurd h hc
    | abort => exact fun h => absurd rfl h
    | events | holds | display | coarse | settle | queue | supply => exact ih

/-- A frame end sets the frame timer by what drives. -/
theorem State.frameEnds_frameSound (s : State) : s.frameEnds.FrameSound := by
  intro h
  by_contra hd
  exact h (if_neg hd)

end Sys2Proof.Machine
end

section
/-! PROOF. Where a line ends (R47 to R53): the state of the setter after k characters, and the end of the line by the
first character that does not fit. -/

namespace Sys2Proof.Machine

/-! ### Characters and their candidates -/

theorem candidate_isSpace (fs : FaceStore) (c : TextChar) (o : Nat) :
    (candidate fs c o).isSpace = true ↔ c.code = 0x20 := by
  unfold candidate Placement.isSpace
  simp only [spaceCode, fixedSpaceCode]
  by_cases h1 : c.code = 0x20
  · simp [h1]
  · by_cases h2 : c.code = 0xA0
    · simp [h2]
    · cases hg : fs.fullLookup c.face c.code <;> simp [h1, h2]

theorem naturalWidth_append (a b : List Placement) : naturalWidth (a ++ b) = naturalWidth a + naturalWidth b := by
  simp [naturalWidth]

theorem naturalWidth_singleton (p : Placement) : naturalWidth [p] = p.width := by simp [naturalWidth]

/-- What is trimmed from the end of a line is its spaces, and no space is left there. -/
theorem trimSpaces_spec (ps : List Placement) : ∃ spaces, ps = trimSpaces ps ++ spaces ∧
    (∀ p ∈ spaces, p.kind = .space) ∧ ∀ p, (trimSpaces ps).getLast? = some p → p.kind ≠ .space := by
  refine ⟨(ps.reverse.takeWhile Placement.isSpace).reverse, ?_, fun p hp => ?_, fun p hp => ?_⟩
  · rw [trimSpaces, ← List.reverse_append, List.takeWhile_append_dropWhile, List.reverse_reverse]
  · have := List.mem_takeWhile_imp (List.mem_reverse.1 hp)
    simpa [Placement.isSpace] using this
  · rw [trimSpaces, List.getLast?_reverse] at hp
    have := List.head?_dropWhile_not Placement.isSpace ps.reverse
    rw [hp] at this
    simpa [Placement.isSpace] using this

theorem trimSpaces_length_le (ps : List Placement) : (trimSpaces ps).length ≤ ps.length := by
  obtain ⟨spaces, h, _⟩ := trimSpaces_spec ps
  have := congrArg List.length h
  simp only [List.length_append] at this
  omega

theorem naturalWidth_trimSpaces_le (ps : List Placement) : naturalWidth (trimSpaces ps) ≤ naturalWidth ps := by
  obtain ⟨spaces, h, _⟩ := trimSpaces_spec ps
  have := congrArg naturalWidth h
  rw [naturalWidth_append] at this
  omega

/-! ### The setter after k characters -/

section
variable (fs : FaceStore) (base avail index : Nat) (text : List TextChar)

/-- The candidates of the first `k` characters of a line: soft hyphens have none. -/
def lineCandidates (k : Nat) : List Placement := ((text.take k).zipIdx).filterMap fun (p : TextChar × Nat) =>
  if p.1.code = 0xAD then none else some (candidate fs p.1 (base + index + p.2))

/-- The first `k` characters hold no paragraph end, and their candidates are a line that fits. -/
def LineFits (k : Nat) : Prop := (∀ c ∈ text.take k, c.code ≠ 0x0A) ∧
  (lineCandidates fs base index text k).length ≤ 255 ∧ naturalWidth (lineCandidates fs base index text k) ≤ avail

/-- The hyphen that a soft hyphen at character `k` would set. -/
def lineHyphen (k : Nat) (c : TextChar) : Placement := hyphenPlacement fs c (base + index + k)

/-- Character `k` is a usable opportunity to break. -/
def LineUsable (k : Nat) : Prop := lineCandidates fs base index text k ≠ [] ∧ ∃ c, text[k]? = some c ∧ (c.code = 0x20 ∨
  (c.code = 0xAD ∧ naturalWidth (lineCandidates fs base index text k) + (lineHyphen fs base index k c).width ≤ avail ∧
    (lineCandidates fs base index text k).length ≤ 254))

/-- The line broken at character `k`, which is `c`. -/
def lineBreak (k : Nat) (c : TextChar) : LineEnd :=
  if c.code = 0x20 then
    ⟨trimSpaces (lineCandidates fs base index text k), index + k + 1, false, false, false, false, false⟩
  else
    ⟨lineCandidates fs base index text k ++ [lineHyphen fs base index k c], index + k + 1, false, true,
      hyphenVoid fs c.face, false, false⟩

open Classical in
/-- The break at the latest usable opportunity among the first `k` characters. -/
noncomputable def lineBest : Nat → Option LineEnd
  | 0 => none
  | k + 1 =>
    match text[k]? with
    | some c => if LineUsable fs base avail index text k then some (lineBreak fs base index text k c) else lineBest k
    | none => lineBest k

/-- The index one past the last of the first `k` characters that has a candidate. -/
def lineLast : Nat → Nat
  | 0 => index
  | k + 1 =>
    match text[k]? with
    | some c => if c.code = 0xAD then lineLast k else index + k + 1
    | none => lineLast k

variable {fs base avail index text}

theorem lineCandidates_zero : lineCandidates fs base index text 0 = [] := rfl

theorem lineCandidates_succ {k : Nat} {c : TextChar} (h : text[k]? = some c) :
    lineCandidates fs base index text (k + 1) = lineCandidates fs base index text k ++
      (if c.code = 0xAD then [] else [candidate fs c (base + index + k)]) := by
  have hk : k < text.length := (List.getElem?_eq_some_iff.1 h).1
  have hlen : (text.take k).length = k := by rw [List.length_take]; omega
  simp only [lineCandidates, List.take_add_one, h, Option.toList_some, List.zipIdx_append, List.filterMap_append, hlen,
    Nat.zero_add, List.zipIdx_singleton]
  congr 1
  by_cases hc : c.code = 0xAD <;> simp [hc]

theorem lineFits_zero : LineFits fs base avail index text 0 := by
  refine ⟨by simp, ?_, ?_⟩ <;> rw [lineCandidates_zero]
  · exact Nat.zero_le _
  · exact Nat.zero_le _

theorem lineFits_succ {k : Nat} {c : TextChar} (h : text[k]? = some c) : LineFits fs base avail index text (k + 1) ↔
    LineFits fs base avail index text k ∧ c.code ≠ 0x0A ∧ (c.code ≠ 0xAD →
      (lineCandidates fs base index text k).length < 255 ∧
      naturalWidth (lineCandidates fs base index text k) + (candidate fs c (base + index + k)).width ≤ avail) := by
  unfold LineFits
  rw [lineCandidates_succ h, List.take_add_one, h]
  by_cases hc : c.code = 0xAD
  · simp only [if_pos hc, List.append_nil, Option.toList_some, List.forall_mem_append, List.forall_mem_singleton]
    constructor
    · rintro ⟨⟨h1, h2⟩, h3, h4⟩
      exact ⟨⟨h1, h3, h4⟩, h2, fun hne => absurd hc hne⟩
    · rintro ⟨⟨h1, h3, h4⟩, h2, _⟩
      exact ⟨⟨h1, h2⟩, h3, h4⟩
  · simp only [if_neg hc, Option.toList_some, List.forall_mem_append, List.forall_mem_singleton, naturalWidth_append,
      naturalWidth_singleton, List.length_append, List.length_singleton]
    constructor
    · rintro ⟨⟨h1, h2⟩, h3, h4⟩
      exact ⟨⟨h1, by omega, by omega⟩, h2, fun _ => ⟨by omega, h4⟩⟩
    · rintro ⟨⟨h1, h3, h4⟩, h2, h5⟩
      exact ⟨⟨h1, h2⟩, by have := (h5 hc).1; omega, (h5 hc).2⟩

theorem lineFits_mono {k m : Nat} (hkm : k ≤ m) (hm : m ≤ text.length) (h : LineFits fs base avail index text m) :
    LineFits fs base avail index text k := by
  induction m with
  | zero => exact (Nat.le_zero.1 hkm) ▸ h
  | succ m ih =>
    rcases Nat.lt_or_ge k (m + 1) with hlt | hge
    · exact ih (by omega) (by omega) ((lineFits_succ (List.getElem?_eq_getElem (by omega))).1 h).1
    · exact (by omega : k = m + 1) ▸ h

/-- What the setter has after `k` characters that fit. -/
theorem fillLine_run {k : Nat} (hk : k ≤ text.length) (h : LineFits fs base avail index text k) :
    fillLine fs base avail text index [] none index =
      fillLine fs base avail (text.drop k) (index + k) (lineCandidates fs base index text k)
        (lineBest fs base avail index text k) (lineLast index text k) := by
  induction k with
  | zero => rfl
  | succ k ih =>
    have hc : text[k]? = some text[k] := List.getElem?_eq_getElem (by omega)
    obtain ⟨hfit, hpara, hcand⟩ := (lineFits_succ hc).1 h
    rw [ih (by omega) hfit, List.drop_eq_getElem_cons (by omega), fillLine, if_neg (by exact hpara), Nat.add_assoc index k]
    simp only [lineBest, lineLast, lineCandidates_succ hc, hc, ← Nat.add_assoc]
    by_cases hsoft : text[k].code = 0xAD
    · rw [if_pos (by exact hsoft)]
      simp only [if_pos hsoft, List.append_nil]
      congr 1
      have huse : LineUsable fs base avail index text k ↔
          ((!(lineCandidates fs base index text k).isEmpty &&
            decide (naturalWidth (lineCandidates fs base index text k) +
              (hyphenPlacement fs text[k] (base + index + k)).width ≤ avail) &&
            decide ((lineCandidates fs base index text k).length ≤ 254)) = true) := by
        simp only [LineUsable, hc, Option.some.injEq, exists_eq_left', hsoft, lineHyphen, Bool.and_eq_true,
          decide_eq_true_eq, Bool.not_eq_true', List.isEmpty_eq_false_iff, and_assoc, true_and]
        simp
      simp only [huse, lineBreak, hsoft, lineHyphen]
      rfl
    · obtain ⟨hlen, hwidth⟩ := hcand hsoft
      rw [if_neg (by exact hsoft), if_pos ⟨hlen, hwidth⟩]
      simp only [if_neg hsoft]
      congr 1
      have huse : LineUsable fs base avail index text k ↔
          ((candidate fs text[k] (base + index + k)).isSpace && !(lineCandidates fs base index text k).isEmpty) = true := by
        simp only [LineUsable, hc, Option.some.injEq, exists_eq_left', hsoft, false_and, or_false, Bool.and_eq_true,
          candidate_isSpace, Bool.not_eq_true', List.isEmpty_eq_false_iff, ne_eq]
        exact And.comm
      by_cases hu : LineUsable fs base avail index text k
      · have hspace : text[k].code = 0x20 := by
          obtain ⟨_, c, hc', h⟩ := hu
          cases hc.symm.trans hc'
          exact h.resolve_right fun h => hsoft h.1
        rw [if_pos (huse.1 hu), if_pos hu, lineBreak, if_pos hspace]
        rfl
      · rw [if_neg (fun h => hu (huse.2 h)), if_neg hu]

/-! ### The three ends of a line -/

theorem fillLine_textEnd (h : LineFits fs base avail index text text.length) :
    fillLine fs base avail text index [] none index =
      ⟨trimSpaces (lineCandidates fs base index text text.length), index + text.length, false, false, false, false,
        true⟩ := by
  rw [fillLine_run (Nat.le_refl _) h, List.drop_length, fillLine]

theorem fillLine_paraEnd {m : Nat} {c : TextChar} (h : LineFits fs base avail index text m) (hc : text[m]? = some c)
    (hpara : c.code = 0x0A) : fillLine fs base avail text index [] none index =
      ⟨trimSpaces (lineCandidates fs base index text m), index + m + 1, false, false, false, true, false⟩ := by
  obtain ⟨hm, rfl⟩ := List.getElem?_eq_some_iff.1 hc
  rw [fillLine_run hm.le h, List.drop_eq_getElem_cons hm, fillLine, if_pos (by exact hpara)]

/-- Character `m` is the first candidate that does not fit. -/
def LineOverflows (fs : FaceStore) (base avail index : Nat) (text : List TextChar) (m : Nat) : Prop :=
  LineFits fs base avail index text m ∧
    ∃ c, text[m]? = some c ∧ c.code ≠ 0x0A ∧ ¬ LineFits fs base avail index text (m + 1)

theorem fillLine_overflow {m : Nat} {c : TextChar} (h : LineOverflows fs base avail index text m)
    (hc : text[m]? = some c) : c.code ≠ 0xAD ∧ fillLine fs base avail text index [] none index =
      overflowEnd (lineCandidates fs base index text m) (lineBest fs base avail index text m) (lineLast index text m)
        (candidate fs c (base + index + m)) (index + m) := by
  obtain ⟨hfit, d, hd, hpara, hover⟩ := h
  obtain ⟨hm, rfl⟩ := List.getElem?_eq_some_iff.1 hc
  cases hc.symm.trans hd
  rw [lineFits_succ hc] at hover
  simp only [hfit, hpara, ne_eq, not_false_eq_true, true_and, Classical.not_imp] at hover
  refine ⟨hover.1, ?_⟩
  rw [fillLine_run hm.le hfit, List.drop_eq_getElem_cons hm, fillLine, if_neg (by exact hpara),
    if_neg (by exact hover.1)]
  simp only [← Nat.add_assoc]
  exact if_neg hover.2

/-- A line ends in one of three ways. -/
theorem line_ends : LineFits fs base avail index text text.length ∨
    (∃ m c, LineFits fs base avail index text m ∧ text[m]? = some c ∧ c.code = 0x0A) ∨
    ∃ m, LineOverflows fs base avail index text m := by
  by_contra hno
  simp only [not_or, not_exists, not_and] at hno
  obtain ⟨hend, hpara, hover⟩ := hno
  have all : ∀ k, k ≤ text.length → LineFits fs base avail index text k := by
    intro k
    induction k with
    | zero => exact fun _ => lineFits_zero
    | succ k ih =>
      intro hk
      have hc : text[k]? = some text[k] := List.getElem?_eq_getElem (by omega)
      by_contra hfit
      exact hover k ⟨ih (by omega), _, hc, hpara k _ (ih (by omega)) hc, hfit⟩
  exact hend (all _ (Nat.le_refl _))

/-! ### The break of a line that overflows -/

theorem lineBest_of_latest {m k : Nat} {c : TextChar} (hkm : k < m) (hu : LineUsable fs base avail index text k)
    (hlast : ∀ j, k < j → j < m → ¬ LineUsable fs base avail index text j) (hc : text[k]? = some c) :
    lineBest fs base avail index text m = some (lineBreak fs base index text k c) := by
  induction m with
  | zero => omega
  | succ m ih =>
    unfold lineBest
    rcases Nat.lt_or_ge k m with hlt | hge
    · have hno := hlast m hlt (by omega)
      have := ih hlt fun j h1 h2 => hlast j h1 (by omega)
      split
      · rw [if_neg hno, this]
      · exact this
    · obtain rfl : k = m := by omega
      simp only [hc, if_pos hu]

theorem lineBest_none {m : Nat} (h : ∀ j, j < m → ¬ LineUsable fs base avail index text j) :
    lineBest fs base avail index text m = none := by
  induction m with
  | zero => rfl
  | succ m ih =>
    have := ih fun j hj => h j (by omega)
    unfold lineBest
    split
    · rw [if_neg (h m (by omega)), this]
    · exact this

theorem lineLast_eq {m l : Nat} {c : TextChar} (hl : l < m) (hc : text[l]? = some c) (hne : c.code ≠ 0xAD)
    (hsoft : ∀ j d, l < j → j < m → text[j]? = some d → d.code = 0xAD) : lineLast index text m = index + l + 1 := by
  induction m with
  | zero => omega
  | succ m ih =>
    unfold lineLast
    rcases Nat.lt_or_ge l m with hlt | hge
    · have := ih hlt fun j d h1 h2 => hsoft j d h1 (by omega)
      split
      · next d hd => rw [if_pos (hsoft m d hlt (by omega) hd), this]
      · exact this
    · obtain rfl : l = m := by omega
      simp only [hc, if_neg hne]

/-- A line with candidates has a last character with one. -/
theorem exists_last_candidate {m : Nat} (hm : m ≤ text.length) (h : lineCandidates fs base index text m ≠ []) :
    ∃ l c, l < m ∧ text[l]? = some c ∧ c.code ≠ 0xAD ∧
      ∀ j d, l < j → j < m → text[j]? = some d → d.code = 0xAD := by
  induction m with
  | zero => exact absurd rfl h
  | succ m ih =>
    have hc : text[m]? = some text[m] := List.getElem?_eq_getElem (by omega)
    by_cases hsoft : text[m].code = 0xAD
    · rw [lineCandidates_succ hc, if_pos hsoft, List.append_nil] at h
      obtain ⟨l, c, hl, hcl, hne, hall⟩ := ih (by omega) h
      refine ⟨l, c, by omega, hcl, hne, fun j d h1 h2 hd => ?_⟩
      rcases Nat.lt_or_ge j m with hj | hj
      · exact hall j d h1 hj hd
      · obtain rfl : j = m := by omega
        cases hc.symm.trans hd
        exact hsoft
    · exact ⟨m, _, by omega, hc, hsoft, fun j d h1 h2 => by omega⟩

open Classical in
/-- Among the first characters there is a latest usable opportunity, or none. -/
theorem exists_latest_usable (m : Nat) : (∀ k, k ≤ m → ¬ LineUsable fs base avail index text k) ∨
    ∃ k, k ≤ m ∧ LineUsable fs base avail index text k ∧
      ∀ j, k < j → j ≤ m → ¬ LineUsable fs base avail index text j := by
  induction m with
  | zero =>
    by_cases h : LineUsable fs base avail index text 0
    · exact .inr ⟨0, Nat.le_refl _, h, fun j _ _ => by omega⟩
    · exact .inl fun k hk => (Nat.le_zero.1 hk) ▸ h
  | succ m ih =>
    by_cases h : LineUsable fs base avail index text (m + 1)
    · exact .inr ⟨m + 1, Nat.le_refl _, h, fun j _ _ => by omega⟩
    · rcases ih with ih | ⟨k, hk, hu, hlast⟩
      · refine .inl fun k hk => ?_
        rcases Nat.lt_or_ge k (m + 1) with hlt | hge
        · exact ih k (by omega)
        · exact (by omega : k = m + 1) ▸ h
      · refine .inr ⟨k, by omega, hu, fun j h1 h2 => ?_⟩
        rcases Nat.lt_or_ge j (m + 1) with hlt | hge
        · exact hlast j h1 (by omega)
        · exact (by omega : j = m + 1) ▸ h

/-- A line that overflows breaks at its latest usable opportunity. -/
theorem fillLine_break {m k : Nat} {c : TextChar} (h : LineOverflows fs base avail index text m) (hkm : k ≤ m)
    (hu : LineUsable fs base avail index text k)
    (hlast : ∀ j, k < j → j ≤ m → ¬ LineUsable fs base avail index text j) (hc : text[k]? = some c) :
    fillLine fs base avail text index [] none index = lineBreak fs base index text k c := by
  obtain ⟨d, hd, _⟩ := h.2
  obtain ⟨hsoft, heq⟩ := fillLine_overflow h hd
  rw [heq]
  unfold overflowEnd
  rcases Nat.lt_or_ge k m with hlt | hge
  · have hno := hlast m hlt (Nat.le_refl _)
    rw [lineBest_of_latest hlt hu (fun j h1 h2 => hlast j h1 h2.le) hc, if_neg]
    simp only [Bool.and_eq_true, candidate_isSpace, Bool.not_eq_true', List.isEmpty_eq_false_iff, not_and]
    exact fun hspace hne => hno ⟨hne, d, hd, .inl hspace⟩
  · obtain rfl : k = m := by omega
    obtain rfl : c = d := Option.some.inj (hc.symm.trans hd)
    obtain ⟨hne, e, he, hcode⟩ := hu
    obtain rfl : c = e := Option.some.inj (hc.symm.trans he)
    have hspace : c.code = 0x20 := hcode.resolve_right fun h => hsoft h.1
    rw [if_pos, lineBreak, if_pos hspace]
    · rfl
    · simp only [Bool.and_eq_true, candidate_isSpace, Bool.not_eq_true', List.isEmpty_eq_false_iff]
      exact ⟨hspace, hne⟩

/-- A line that overflows with no usable opportunity is SPLIT. -/
theorem fillLine_split {m : Nat} (h : LineOverflows fs base avail index text m)
    (hno : ∀ k, k ≤ m → ¬ LineUsable fs base avail index text k) :
    (lineCandidates fs base index text m = [] → fillLine fs base avail text index [] none index =
      ⟨lineCandidates fs base index text (m + 1), index + m + 1, true, false, false, false, false⟩ ∧
      (lineCandidates fs base index text (m + 1)).length = 1) ∧
    (∀ l c, l < m → text[l]? = some c → c.code ≠ 0xAD →
      (∀ j d, l < j → j < m → text[j]? = some d → d.code = 0xAD) →
      fillLine fs base avail text index [] none index =
        ⟨lineCandidates fs base index text m, index + l + 1, true, false, false, false, false⟩) := by
  obtain ⟨d, hd, _⟩ := h.2
  have hm : m < text.length := (List.getElem?_eq_some_iff.1 hd).1
  obtain ⟨hsoft, heq⟩ := fillLine_overflow h hd
  have hnone := lineBest_none fun j hj => hno j (Nat.le_of_lt hj)
  have hspace : ((candidate fs d (base + index + m)).isSpace && !(lineCandidates fs base index text m).isEmpty) = false := by
    rw [← Bool.not_eq_true]
    simp only [Bool.and_eq_true, candidate_isSpace, Bool.not_eq_true', List.isEmpty_eq_false_iff, not_and]
    exact fun hs hne => hno m (Nat.le_refl _) ⟨hne, d, hd, .inl hs⟩
  rw [heq]
  unfold overflowEnd
  simp only [hspace, Bool.false_eq_true, if_false, hnone]
  constructor
  · intro hemp
    simp only [lineCandidates_succ hd, hemp, if_neg hsoft, List.isEmpty_nil, if_true, List.nil_append,
      List.length_singleton, and_self]
  · intro l c hl hc hne hall
    have hcand : lineCandidates fs base index text m ≠ [] := by
      intro hemp
      have mono : ∀ n, l + 1 ≤ n → n ≤ m → lineCandidates fs base index text n ≠ [] := by
        intro n h1 h2
        induction n with
        | zero => omega
        | succ n ih =>
          have hn : text[n]? = some text[n] := List.getElem?_eq_getElem (by omega)
          rcases Nat.lt_or_ge l n with h | h
          · rw [lineCandidates_succ hn]
            simp [ih h (by omega)]
          · obtain rfl : l = n := by omega
            rw [lineCandidates_succ hc, if_neg hne]
            simp
      exact mono m hl (Nat.le_refl _) hemp
    rw [if_neg (by simpa using hcand), lineLast_eq hl hc hne hall]

/-! ### What every line keeps -/

/-- The shape of a line's end, from which its bounds follow. -/
structure LineEnd.Bounded (e : LineEnd) (avail index : Nat) (text : List TextChar) : Prop where
  length : e.kept.length ≤ 255
  width : naturalWidth e.kept ≤ avail ∨ (e.split = true ∧ e.kept.length = 1)
  progress : text ≠ [] → index < e.consumed
  bound : e.consumed ≤ index + text.length
  hyphen : e.hyphenated = true → ∃ h, e.kept.getLast? = some h ∧ h.kind = .hyphen

theorem fillLine_bounded (fs : FaceStore) (base avail index : Nat) (text : List TextChar) :
    (fillLine fs base avail text index [] none index).Bounded avail index text := by
  have trimmed : ∀ k, LineFits fs base avail index text k →
      (trimSpaces (lineCandidates fs base index text k)).length ≤ 255 ∧
        naturalWidth (trimSpaces (lineCandidates fs base index text k)) ≤ avail := fun k h =>
    ⟨(trimSpaces_length_le _).trans h.2.1, (naturalWidth_trimSpaces_le _).trans h.2.2⟩
  rcases line_ends (fs := fs) (base := base) (avail := avail) (index := index) (text := text) with
    h | ⟨m, c, h, hc, hpara⟩ | ⟨m, h⟩
  · rw [fillLine_textEnd h]
    exact ⟨(trimmed _ h).1, .inl (trimmed _ h).2, fun hne => by
      have := List.length_pos_iff.2 hne
      show index < index + text.length
      omega, Nat.le_refl _, nofun⟩
  · have hm : m < text.length := (List.getElem?_eq_some_iff.1 hc).1
    rw [fillLine_paraEnd h hc hpara]
    exact ⟨(trimmed _ h).1, .inl (trimmed _ h).2, fun _ => by show index < index + m + 1; omega,
      by show index + m + 1 ≤ _; omega, nofun⟩
  · obtain ⟨d, hd, _⟩ := h.2
    have hm : m < text.length := (List.getElem?_eq_some_iff.1 hd).1
    rcases exists_latest_usable (fs := fs) (base := base) (avail := avail) (index := index) (text := text) m with
      hno | ⟨k, hkm, hu, hlast⟩
    · obtain ⟨h1, h2⟩ := fillLine_split h hno
      by_cases hemp : lineCandidates fs base index text m = []
      · obtain ⟨heq, hlen⟩ := h1 hemp
        rw [heq]
        exact ⟨by show (lineCandidates _ _ _ _ _).length ≤ 255; omega, .inr ⟨rfl, hlen⟩,
          fun _ => by show index < index + m + 1; omega, by show index + m + 1 ≤ _; omega, nofun⟩
      · obtain ⟨l, c, hl, hc, hne, hall⟩ := exists_last_candidate hm.le hemp
        rw [h2 l c hl hc hne hall]
        exact ⟨h.1.2.1, .inl h.1.2.2, fun _ => by show index < index + l + 1; omega,
          by show index + l + 1 ≤ _; omega, nofun⟩
    · obtain ⟨hne, c, hc, hcode⟩ := id hu
      have hk : k < text.length := (List.getElem?_eq_some_iff.1 hc).1
      have hfit := lineFits_mono hkm hm.le h.1
      rw [fillLine_break h hkm hu hlast hc, lineBreak]
      split
      · exact ⟨(trimmed _ hfit).1, .inl (trimmed _ hfit).2, fun _ => by show index < index + k + 1; omega,
          by show index + k + 1 ≤ _; omega, nofun⟩
      · next hspace =>
        obtain ⟨_, hwidth, hlen⟩ := hcode.resolve_left hspace
        refine ⟨?_, .inl ?_, fun _ => by show index < index + k + 1; omega, by show index + k + 1 ≤ _; omega,
          fun _ => ⟨_, List.getLast?_concat .., rfl⟩⟩
        · simp only [List.length_append, List.length_singleton]
          omega
        · rw [naturalWidth_append, naturalWidth_singleton]
          exact hwidth

end

/-! ### Lookups -/

theorem FaceStore.entry_some {fs : FaceStore} {face code : Nat} {g : Glyph} (h : fs.entry face code = some g) :
    g ∈ fs.directory ∧ g.face = face ∧ g.code = code := by
  have hp := List.find?_some h
  simp only [Bool.and_eq_true, beq_iff_eq] at hp
  exact ⟨List.mem_of_find?_eq_some h, hp⟩

theorem FaceStore.entry_none {fs : FaceStore} {face code : Nat} :
    fs.entry face code = none ↔ ∀ g ∈ fs.directory, ¬ (g.face = face ∧ g.code = code) := by
  simp [FaceStore.entry]

/-- The full lookup answers an entry of the code, or one of the missing code where there is none (R29). -/
theorem FaceStore.fullLookup_some {fs : FaceStore} {face code : Nat} {g : Glyph} (h : fs.fullLookup face code = some g) :
    fs.entry face code = some g ∨ (fs.entry face code = none ∧ fs.entry face (fs.face face).missingCode = some g) := by
  unfold FaceStore.fullLookup at h
  split at h
  · next g' hg => exact .inl (hg.trans h)
  · next hg => exact .inr ⟨hg, h⟩

theorem FaceStore.fullLookup_none {fs : FaceStore} {face code : Nat} : fs.fullLookup face code = none ↔
    fs.entry face code = none ∧ fs.entry face (fs.face face).missingCode = none := by
  unfold FaceStore.fullLookup
  cases fs.entry face code <;> simp

theorem candidate_spec (fs : FaceStore) (c : TextChar) (o : Nat) :
    ((candidate fs c o).face = c.face ∧ (candidate fs c o).code = c.code ∧ (candidate fs c o).offset = o ∧
      (candidate fs c o).pen = 0) ∧
    (c.code = 0x20 → (candidate fs c o).kind = .space ∧ (candidate fs c o).width = (fs.face c.face).spaceAdvance) ∧
    (c.code = 0xA0 → (candidate fs c o).kind = .fixed ∧ (candidate fs c o).width = (fs.face c.face).spaceAdvance) ∧
    (c.code ≠ 0x20 → c.code ≠ 0xA0 →
      (∀ g, fs.fullLookup c.face c.code = some g →
        (candidate fs c o).kind = .glyph ∧ (candidate fs c o).width = g.advance) ∧
      (fs.fullLookup c.face c.code = none →
        (candidate fs c o).kind = .void ∧ (candidate fs c o).width = (fs.face c.face).spaceAdvance)) := by
  unfold candidate
  simp only [spaceCode, fixedSpaceCode]
  by_cases h1 : c.code = 0x20
  · simp [h1]
  · by_cases h2 : c.code = 0xA0
    · simp [h2]
    · cases hg : fs.fullLookup c.face c.code <;> simp [h1, h2]

theorem hyphen_spec (fs : FaceStore) (c : TextChar) (o : Nat) :
    hyphenPlacement fs c o = ⟨.hyphen, c.face, (fs.face c.face).hyphenCode, o, 0, (hyphenPlacement fs c o).width⟩ ∧
    (∀ g, fs.fullLookup c.face (fs.face c.face).hyphenCode = some g →
      (hyphenPlacement fs c o).width = g.advance ∧ hyphenVoid fs c.face = false) ∧
    (fs.fullLookup c.face (fs.face c.face).hyphenCode = none →
      (hyphenPlacement fs c o).width = (fs.face c.face).spaceAdvance ∧ hyphenVoid fs c.face = true) := by
  refine ⟨rfl, fun g hg => ?_, fun hg => ?_⟩ <;> simp [hyphenPlacement, hyphenVoid, hg]

/-- Settles O25: the line's bounds and ends, with the setter followed character by character up to the first one that
does not fit. -/
theorem lineFitsOrIsSplit : Obligations.LineFitsOrIsSplit := by
  refine ⟨?_, trimSpaces_spec, ?_, ?_⟩
  · intro fs base avail index text e placed hyphen fits usable overflows
    obtain ⟨hlen, hwidth, hprog, hbound, hhyph⟩ := fillLine_bounded fs base avail index text
    refine ⟨hlen, hwidth, hprog, hbound, hhyph, line_ends, fillLine_textEnd, fun m c => fillLine_paraEnd,
      fun m h => ⟨fun k c hk hu hlast hc => fillLine_break h hk hu hlast hc, fun hno => ?_⟩⟩
    obtain ⟨h1, h2⟩ := fillLine_split h hno
    exact ⟨fun hemp => (h1 hemp).1, h2⟩
  · intro fs c offset f p h
    obtain ⟨h1, h2, h3, h4⟩ := candidate_spec fs c offset
    exact ⟨h1, h2, h3, h4, hyphen_spec fs c offset⟩
  · intro fs face code holds
    refine ⟨fun g hg => ?_, ?_⟩
    · rcases FaceStore.fullLookup_some hg with h | ⟨hnone, h⟩
      · exact .inl (FaceStore.entry_some h)
      · exact .inr ⟨fun k hk => FaceStore.entry_none.1 hnone k hk.1 hk.2, FaceStore.entry_some h⟩
    · rw [FaceStore.fullLookup_none, FaceStore.entry_none, FaceStore.entry_none]
      exact ⟨fun h g => ⟨fun hg => h.1 g hg.1 hg.2, fun hg => h.2 g hg.1 hg.2⟩,
        fun h => ⟨fun g hg hk => (h g).1 ⟨hg, hk⟩, fun g hg hk => (h g).2 ⟨hg, hk⟩⟩⟩

end Sys2Proof.Machine
end

section
/-! PROOF. How a line is placed (R54, R55): the extras, the pens and the alignment used. -/

namespace Sys2Proof.Machine

/-! ### Extras and pens -/

/-- The number of spaces among placements. -/
def spaceCount (ps : List Placement) : Nat := (ps.filter fun p => p.kind == .space).length

theorem spaceCount_cons (p : Placement) (ps : List Placement) :
    spaceCount (p :: ps) = spaceCount ps + if p.kind = .space then 1 else 0 := by
  unfold spaceCount
  by_cases h : p.kind = .space <;> simp [h]

theorem spaceCount_eq_filter (ps : List Placement) : spaceCount ps = (ps.filter Placement.isSpace).length := rfl

/-- The width of a placement that `before` spaces stand before. -/
def extraWidth (justified : Bool) (each ones before : Nat) (a : Placement) : Nat :=
  if justified = true ∧ a.kind = .space then a.width + each + (if before < ones then 1 else 0) else a.width

theorem setPens_cons (justified : Bool) (each pen ones : Nat) (p : Placement) (rest : List Placement) :
    setPens justified each pen ones (p :: rest) =
      { p with pen := pen, width := extraWidth justified each ones 0 p } ::
        setPens justified each (pen + extraWidth justified each ones 0 p)
          (if justified = true ∧ p.kind = .space then ones - 1 else ones) rest := by
  rw [setPens]
  unfold extraWidth
  by_cases h : justified = true ∧ p.kind = .space
  · simp [h, Placement.isSpace]
  · have : (justified && p.isSpace) = false := by simpa [Placement.isSpace] using h
    simp only [this, h, if_false, Bool.false_eq_true]

theorem setPens_length (justified : Bool) (each pen ones : Nat) (ps : List Placement) :
    (setPens justified each pen ones ps).length = ps.length := by
  induction ps generalizing pen ones with
  | nil => rfl
  | cons p rest ih => simp only [setPens_cons, List.length_cons, ih]

theorem setPens_get {justified : Bool} {each pen ones : Nat} {ps : List Placement} {k : Nat} {a b : Placement}
    (ha : ps[k]? = some a) (hb : (setPens justified each pen ones ps)[k]? = some b) :
    b = { a with pen := b.pen, width := extraWidth justified each ones (spaceCount (ps.take k)) a } := by
  induction ps generalizing pen ones k with
  | nil => simp at ha
  | cons p rest ih =>
    rw [setPens_cons] at hb
    cases k with
    | zero =>
      cases ha
      cases hb
      rfl
    | succ k =>
      simp only [List.getElem?_cons_succ] at ha hb
      have := ih ha hb
      rw [this]
      congr 1
      simp only [List.take_succ_cons, spaceCount_cons, extraWidth]
      by_cases hj : justified = true ∧ p.kind = .space
      · simp only [hj, and_self, if_true, true_and]
        split_ifs <;> omega
      · by_cases hp : p.kind = .space
        · have : justified ≠ true := fun h => hj ⟨h, hp⟩
          simp [this]
        · simp [hp]

theorem setPens_first {justified : Bool} {each pen ones : Nat} {ps : List Placement} {b : Placement}
    (hb : (setPens justified each pen ones ps)[0]? = some b) : b.pen = pen := by
  cases ps with
  | nil => simp [setPens] at hb
  | cons p rest =>
    rw [setPens_cons] at hb
    cases hb
    rfl

theorem setPens_chain {justified : Bool} {each pen ones : Nat} {ps : List Placement} {k : Nat} {a b : Placement}
    (ha : (setPens justified each pen ones ps)[k]? = some a)
    (hb : (setPens justified each pen ones ps)[k + 1]? = some b) : b.pen = a.pen + a.width := by
  induction ps generalizing pen ones k with
  | nil => simp [setPens] at ha
  | cons p rest ih =>
    rw [setPens_cons] at ha hb
    simp only [List.getElem?_cons_succ] at hb
    cases k with
    | zero =>
      cases ha
      exact setPens_first hb
    | succ k =>
      simp only [List.getElem?_cons_succ] at ha
      exact ih ha hb

/-- Each space of a justified line takes its extra, and as many as there are ones take one more. -/
theorem setPens_sum (each pen ones : Nat) (ps : List Placement) :
    ((setPens true each pen ones ps).map Placement.width).sum =
      naturalWidth ps + each * spaceCount ps + min ones (spaceCount ps) := by
  induction ps generalizing pen ones with
  | nil => simp [setPens, naturalWidth, spaceCount]
  | cons p rest ih =>
    rw [setPens_cons, List.map_cons, List.sum_cons, ih, spaceCount_cons]
    simp only [naturalWidth, List.map_cons, List.sum_cons, extraWidth]
    by_cases hp : p.kind = .space
    · simp only [hp, and_self, if_true, Nat.mul_add]
      split_ifs <;> omega
    · simp only [hp, and_false, if_false, Nat.add_zero]
      omega

/-! ### The alignment used -/

section
variable (asked : Align) (e : LineEnd) (endsPara : Bool) (avail stretch : Nat)

/-- A line that R53 or a SPLIT closes is never justified. -/
def LineEnd.Closes (e : LineEnd) (endsPara : Bool) : Prop :=
  e.paraEnd = true ∨ (e.textEnd = true ∧ endsPara = true) ∨ e.split = true

/-- The largest extra that a space of a justified line takes. -/
def largestExtra (slack n : Nat) : Nat := if slack % n = 0 then slack / n else slack / n + 1

theorem LineEnd.closes_iff : (e.paraEnd || e.lastOfPara endsPara || e.split) = true ↔ e.Closes endsPara := by
  simp only [LineEnd.lastOfPara, LineEnd.Closes, Bool.or_eq_true, Bool.and_eq_true]
  tauto

theorem placeLine_wide (h : avail < naturalWidth e.kept) :
    placeLine asked e endsPara avail stretch = ⟨.left, false, 0, 0, 0⟩ := if_pos h

theorem placeLine_ragged (h : naturalWidth e.kept ≤ avail) (ha : asked ≠ .justify) :
    placeLine asked e endsPara avail stretch = ⟨asked, false, avail - naturalWidth e.kept, 0, 0⟩ := by
  unfold placeLine
  simp only [if_neg (Nat.not_lt.2 h)]
  cases asked with
  | left => rfl
  | center => rfl
  | justify => exact absurd rfl ha

theorem placeLine_closes (h : naturalWidth e.kept ≤ avail) (hc : e.Closes endsPara) :
    placeLine .justify e endsPara avail stretch = ⟨.left, false, avail - naturalWidth e.kept, 0, 0⟩ := by
  unfold placeLine
  simp only [if_neg (Nat.not_lt.2 h), if_pos ((e.closes_iff endsPara).2 hc)]

theorem placeLine_justify (h : naturalWidth e.kept ≤ avail) (hc : ¬ e.Closes endsPara) :
    placeLine .justify e endsPara avail stretch =
      let slack := avail - naturalWidth e.kept
      let n := spaceCount e.kept
      if n = 0 then ⟨.left, decide (stretch < slack), slack, 0, 0⟩
      else if largestExtra slack n ≤ stretch then ⟨.justify, false, slack, slack / n, slack % n⟩
      else ⟨.left, true, slack, 0, 0⟩ := by
  have hmod : ∀ a b : Nat, a - a / b * b = a % b := fun a b => by
    have := Nat.div_add_mod a b
    rw [Nat.mul_comm] at this
    omega
  unfold placeLine
  simp only [if_neg (Nat.not_lt.2 h), if_neg (fun hx => hc ((e.closes_iff endsPara).1 hx)), ← spaceCount_eq_filter, hmod,
    largestExtra, gt_iff_lt, Nat.pos_iff_ne_zero, ite_not]
  rfl

/-- Only a line with room, spaces and an extra within J is set JUSTIFY. -/
theorem placeLine_align_justify (h : (placeLine asked e endsPara avail stretch).align = .justify) :
    naturalWidth e.kept ≤ avail ∧ spaceCount e.kept ≠ 0 ∧
      largestExtra (avail - naturalWidth e.kept) (spaceCount e.kept) ≤ stretch ∧
      (placeLine asked e endsPara avail stretch).each = (avail - naturalWidth e.kept) / spaceCount e.kept ∧
      (placeLine asked e endsPara avail stretch).ones = (avail - naturalWidth e.kept) % spaceCount e.kept := by
  by_cases hw : avail < naturalWidth e.kept
  · rw [placeLine_wide _ _ _ _ _ hw] at h
    cases h
  · have hw := Nat.not_lt.1 hw
    by_cases ha : asked = .justify
    · subst ha
      by_cases hc : e.Closes endsPara
      · rw [placeLine_closes _ _ _ _ hw hc] at h
        cases h
      · rw [placeLine_justify _ _ _ _ hw hc] at h ⊢
        simp only at h ⊢
        split_ifs at h ⊢ with h1 h2
        exact ⟨hw, h1, h2, rfl, rfl⟩
    · rw [placeLine_ragged _ _ _ _ _ hw ha] at h
      exact absurd h ha

/-- A line set to the center has a slack of what the width leaves. -/
theorem placeLine_align_center (h : (placeLine asked e endsPara avail stretch).align = .center) :
    (placeLine asked e endsPara avail stretch).slack = avail - naturalWidth e.kept := by
  by_cases hw : avail < naturalWidth e.kept
  · rw [placeLine_wide _ _ _ _ _ hw] at h
    cases h
  · have hw := Nat.not_lt.1 hw
    by_cases ha : asked = .justify
    · subst ha
      by_cases hc : e.Closes endsPara
      · rw [placeLine_closes _ _ _ _ hw hc]
      · rw [placeLine_justify _ _ _ _ hw hc] at h ⊢
        simp only at h ⊢
        split_ifs at h
    · rw [placeLine_ragged _ _ _ _ _ hw ha]

end

theorem extraWidth_le {slack n stretch : Nat} (h : largestExtra slack n ≤ stretch) (justified : Bool) (before : Nat)
    (a : Placement) : extraWidth justified (slack / n) (slack % n) before a ≤ a.width + stretch := by
  unfold largestExtra at h
  unfold extraWidth
  split_ifs at h ⊢ <;> omega

/-- Settles O26: the placing of a line by R54's table, and the pens and widths of R55, which add up to the column. -/
theorem justifiedLineFillsTheColumn : Obligations.JustifiedLineFillsTheColumn := by
  intro t base start indent asked endsPara e r avail width slack spaces n largest closes used
  have hn : n = spaceCount e.kept := by
    show ((e.kept.take e.kept.length).filter _).length = _
    rw [List.take_length]
    rfl
  have hbool : ∀ al : Align, (al == .justify) = true ↔ al = .justify := fun al => by simp
  have used_of : ∀ {pl : Placing}, placeLine asked e endsPara avail t.stretch = pl → used pl.align pl.loose := by
    intro pl h
    exact h ▸ ⟨rfl, rfl⟩
  refine ⟨fun h => used_of (placeLine_wide _ _ _ _ _ h), fun h => ⟨?_, ?_, ?_, ?_, ?_, ?_⟩, ⟨rfl, rfl, rfl, rfl, rfl, ?_⟩,
    setPens_length .., fun k a b ha hb => ?_, fun b hb => ?_, fun k a b ha hb => setPens_chain ha hb, fun hj => ?_⟩
  · rintro rfl
    exact used_of (placeLine_ragged _ _ _ _ _ h nofun)
  · rintro rfl
    exact used_of (placeLine_ragged _ _ _ _ _ h nofun)
  · rintro rfl hc
    exact used_of (placeLine_closes _ _ _ _ h hc)
  · rintro rfl hc hzero
    have := placeLine_justify e endsPara avail t.stretch h hc
    rw [if_pos (hn ▸ hzero)] at this
    exact used_of this
  · rintro rfl hc hone hle
    have := placeLine_justify e endsPara avail t.stretch h hc
    rw [if_neg (by omega), if_pos (by rw [← hn]; exact hle)] at this
    exact used_of this
  · rintro rfl hc hone hlt
    have := placeLine_justify e endsPara avail t.stretch h hc
    rw [if_neg (by omega), if_neg (by rw [← hn]; exact Nat.not_le.2 hlt)] at this
    exact used_of this
  · show (e.hyphenMissing || e.kept.any fun p => p.kind == .void) = true ↔ _
    simp [List.any_eq_true]
  · have hget := setPens_get ha hb
    by_cases hj : r.align = .justify
    · obtain ⟨_, _, hlargest, heach, hones⟩ := placeLine_align_justify _ _ _ _ _ hj
      have hw : extraWidth ((placeLine asked e endsPara avail t.stretch).align == .justify)
          (placeLine asked e endsPara avail t.stretch).each (placeLine asked e endsPara avail t.stretch).ones
          (spaceCount (e.kept.take k)) a = extraWidth true (slack / n) (slack % n) (spaces k) a := by
        rw [heach, hones, (hbool (placeLine asked e endsPara avail t.stretch).align).2 hj, hn]
        rfl
      rw [show b.width = _ from congrArg Placement.width hget]
      refine ⟨hget.trans ?_, fun _ => ?_⟩
      · simp only [hj, true_and]
        congr 1
        exact hw.trans (by simp [extraWidth])
      · exact hw.trans_le (extraWidth_le (hn ▸ hlargest) _ _ _)
    · refine ⟨hget.trans ?_, fun h => absurd h hj⟩
      have hf : ((placeLine asked e endsPara avail t.stretch).align == .justify) = false := by
        rw [← Bool.not_eq_true, hbool]
        exact hj
      simp only [hj, false_and, if_false]
      congr 1
      exact if_neg fun h => by rw [hf] at h; exact absurd h.1 nofun
  · rw [setPens_first hb]
    congr 1
    by_cases hc : r.align = .center
    · rw [if_pos hc]
      refine (if_pos hc).trans ?_
      rw [placeLine_align_center _ _ _ _ _ hc]
    · rw [if_neg hc]
      exact if_neg hc
  · obtain ⟨hwidth, hne, _, heach, hones⟩ := placeLine_align_justify _ _ _ _ _ hj
    show ((setPens ((placeLine asked e endsPara avail t.stretch).align == .justify) _ _ _ _).map Placement.width).sum = _
    rw [(hbool (placeLine asked e endsPara avail t.stretch).align).2 hj]
    show ((setPens true (placeLine asked e endsPara avail t.stretch).each _
      (placeLine asked e endsPara avail t.stretch).ones e.kept).map Placement.width).sum = _
    rw [setPens_sum, heach, hones, Nat.min_eq_left (Nat.mod_lt _ (Nat.pos_of_ne_zero hne)).le, Nat.mul_comm,
      Nat.add_assoc, Nat.div_add_mod]
    omega

end Sys2Proof.Machine
end

section
/-! PROOF. The lines of a draft (R42, R47, R56): one line after another, without a gap. -/

namespace Sys2Proof.Machine

/-! ### The spaces at the start of a line -/

theorem leadingSpaces_cons (c : TextChar) (cs : List TextChar) :
    leadingSpaces (c :: cs) = if c.code = 0x20 then leadingSpaces cs + 1 else 0 := by
  unfold leadingSpaces
  by_cases h : c.code = 0x20 <;> simp [spaceCode, h]

theorem leadingSpaces_eq {cs : List TextChar} {k : Nat} {c : TextChar} (h : cs[k]? = some c) (hne : c.code ≠ 0x20)
    (hall : ∀ j d, j < k → cs[j]? = some d → d.code = 0x20) : leadingSpaces cs = k := by
  induction cs generalizing k with
  | nil => simp at h
  | cons a rest ih =>
    rw [leadingSpaces_cons]
    cases k with
    | zero =>
      cases h
      exact if_neg hne
    | succ k =>
      rw [if_pos (hall 0 a (by omega) rfl), ih h fun j d hj hd => hall (j + 1) d (by omega) hd]

theorem leadingSpaces_of_all {cs : List TextChar} (h : ∀ c ∈ cs, c.code = 0x20) : leadingSpaces cs = cs.length := by
  induction cs with
  | nil => rfl
  | cons a rest ih =>
    obtain ⟨ha, hrest⟩ := List.forall_mem_cons.1 h
    rw [leadingSpaces_cons, if_pos ha, ih hrest, List.length_cons]

theorem get_leadingSpaces {cs : List TextChar} (h : leadingSpaces cs < cs.length) :
    ∃ c, cs[leadingSpaces cs]? = some c ∧ c.code ≠ 0x20 := by
  induction cs with
  | nil => simp [leadingSpaces] at h
  | cons a rest ih =>
    rw [leadingSpaces_cons] at h ⊢
    by_cases ha : a.code = 0x20
    · rw [if_pos ha] at h ⊢
      simp only [List.length_cons, Nat.add_lt_add_iff_right] at h
      exact ih h
    · rw [if_neg ha]
      exact ⟨a, rfl, ha⟩

/-! ### One line of a draft -/

section
variable (fs : FaceStore) (t : Template) (text : List TextChar) (base : Nat) (asked : Align) (endsPara : Bool)

/-- The text index at which a line begins, behind its leading spaces. -/
def lineBegin (position : Nat) : Nat := position + leadingSpaces (text.drop position)

/-- The indent of a line. -/
def lineIndent (nextPara : Bool) : Nat := if nextPara then t.indent else 0

/-- The end of the line that begins at a position. -/
def draftEnd (position : Nat) (nextPara : Bool) : LineEnd :=
  fillLine fs base (t.measure - lineIndent t nextPara) (text.drop (lineBegin text position)) (lineBegin text position) []
    none (lineBegin text position)

/-- The record of the line that begins at a position. -/
def draftLine (position : Nat) (nextPara : Bool) : LineRecord :=
  lineRecord t base position (lineIndent t nextPara) asked endsPara (draftEnd fs t text base position nextPara)

/-- Where building stops and what it does otherwise. -/
theorem buildDraft_step (room position : Nat) (nextPara : Bool) (lines : List LineRecord) :
    buildDraft fs t text base asked endsPara room position nextPara lines =
      if text.length ≤ lineBegin text position then ⟨lines, .textDone, text.length, nextPara⟩
      else match room with
        | 0 => ⟨lines, .pageFull, lineBegin text position, nextPara⟩
        | room + 1 => buildDraft fs t text base asked endsPara room (draftEnd fs t text base position nextPara).consumed
            ((draftEnd fs t text base position nextPara).lastOfPara endsPara)
            (lines ++ [draftLine fs t text base asked endsPara position nextPara]) := by
  have hdrop : (text.drop position).drop (leadingSpaces (text.drop position)) = text.drop (lineBegin text position) := by
    rw [List.drop_drop, lineBegin]
  cases room <;>
    · rw [buildDraft]
      simp only [hdrop]
      rfl

/-- The lines built before a draft's next line do not matter to what follows. -/
theorem buildDraft_append (room position : Nat) (nextPara : Bool) (lines : List LineRecord) :
    buildDraft fs t text base asked endsPara room position nextPara lines =
      { buildDraft fs t text base asked endsPara room position nextPara [] with
        lines := lines ++ (buildDraft fs t text base asked endsPara room position nextPara []).lines } := by
  induction room generalizing position nextPara lines with
  | zero =>
    rw [buildDraft_step, buildDraft_step fs t text base asked endsPara 0 position nextPara []]
    split <;> simp
  | succ room ih =>
    rw [buildDraft_step, buildDraft_step fs t text base asked endsPara (room + 1) position nextPara []]
    split
    · simp
    · simp only
      rw [ih, ih _ _ ([] ++ _)]
      simp

variable {fs t text base asked endsPara}

/-- What a line of a draft consumes, and what its record holds. -/
theorem draftLine_spec {position : Nat} {nextPara : Bool} (h : lineBegin text position < text.length) :
    position < (draftEnd fs t text base position nextPara).consumed ∧
    (draftEnd fs t text base position nextPara).consumed ≤ text.length ∧
    (draftLine fs t text base asked endsPara position nextPara).isSet = true ∧
    (draftLine fs t text base asked endsPara position nextPara).docStart = base + position ∧
    (draftLine fs t text base asked endsPara position nextPara).docEnd =
      base + (draftEnd fs t text base position nextPara).consumed ∧
    (draftLine fs t text base asked endsPara position nextPara).placements.length ≤ 255 := by
  have hb := fillLine_bounded fs base (t.measure - lineIndent t nextPara) (lineBegin text position)
    (text.drop (lineBegin text position))
  have hprog := hb.progress (by simpa using h)
  have hbound := hb.bound
  rw [List.length_drop] at hbound
  have hpos : position ≤ lineBegin text position := Nat.le_add_right ..
  refine ⟨by show _ < LineEnd.consumed (fillLine ..); omega, by show LineEnd.consumed (fillLine ..) ≤ _; omega, rfl, rfl,
    rfl, ?_⟩
  show (setPens _ _ _ _ _).length ≤ 255
  rw [setPens_length]
  exact hb.length

/-- A line of a draft is SET over a range that is not empty, within the text, with at most 255 placements. -/
def DraftLineSound (base : Nat) (text : List TextChar) (r : LineRecord) : Prop :=
  r.isSet = true ∧ r.docStart < r.docEnd ∧ r.docEnd ≤ base + text.length ∧ r.placements.length ≤ 255

/-- What a draft built from a position is. -/
structure DraftSound (base : Nat) (text : List TextChar) (room position : Nat) (nextPara : Bool) (d : DraftEnd) : Prop where
  length : d.lines.length ≤ room
  first : ∀ a, d.lines[0]? = some a → a.docStart = base + position
  chain : ∀ k a b, d.lines[k]? = some a → d.lines[k + 1]? = some b → b.docStart = a.docEnd
  line : ∀ a ∈ d.lines, DraftLineSound base text a
  para : d.lines = [] → d.nextPara = nextPara
  status : (d.status = .textDone ∧ d.nextStart = text.length) ∨
    (d.status = .pageFull ∧ d.lines.length = room ∧ ∃ c, text[d.nextStart]? = some c ∧ c.code ≠ 0x20)

theorem buildDraft_sound (room position : Nat) (nextPara : Bool) : DraftSound base text room position nextPara
    (buildDraft fs t text base asked endsPara room position nextPara []) := by
  induction room generalizing position nextPara with
  | zero =>
    rw [buildDraft_step]
    split
    · exact ⟨Nat.le_refl _, by simp, by simp, by simp, fun _ => rfl, .inl ⟨rfl, rfl⟩⟩
    · next h =>
      refine ⟨Nat.le_refl _, by simp, by simp, by simp, fun _ => rfl, .inr ⟨rfl, rfl, ?_⟩⟩
      obtain ⟨c, hc, hne⟩ := get_leadingSpaces (cs := text.drop position) (by
        rw [List.length_drop]
        simp only [lineBegin] at h
        omega)
      rw [List.getElem?_drop] at hc
      exact ⟨c, hc, hne⟩
  | succ room ih =>
    rw [buildDraft_step]
    split
    · exact ⟨Nat.zero_le _, by simp, by simp, by simp, fun _ => rfl, .inl ⟨rfl, rfl⟩⟩
    · next h =>
      obtain ⟨hprog, hbound, hset, hstart, hend, hlen⟩ := draftLine_spec (fs := fs) (t := t) (base := base)
        (asked := asked) (endsPara := endsPara) (nextPara := nextPara) (Nat.not_le.1 h)
      obtain ⟨ilen, ifirst, ichain, iline, ipara, istatus⟩ := ih (draftEnd fs t text base position nextPara).consumed
        ((draftEnd fs t text base position nextPara).lastOfPara endsPara)
      simp only [List.nil_append]
      rw [buildDraft_append]
      refine ⟨by simpa using ilen, ?_, ?_, ?_, fun h => absurd h (by simp), ?_⟩
      · intro a ha
        cases ha
        exact hstart
      · intro k a b ha hb
        cases k with
        | zero =>
          cases ha
          rw [ifirst b hb, hend]
        | succ k => exact ichain k a b ha hb
      · refine List.forall_mem_cons.2 ⟨⟨hset, ?_, ?_, hlen⟩, iline⟩ <;> omega
      · rcases istatus with h | ⟨h1, h2, h3⟩
        · exact .inl h
        · exact .inr ⟨h1, by simp [h2], h3⟩

end

/-- Settles O27: the draft by induction on its room, and its two stopping conditions and one step. -/
theorem draftLinesMeetWithoutAGap : Obligations.DraftLinesMeetWithoutAGap := by
  intro fs t text base room position asked endsPara nextPara hpos d
  obtain ⟨hlen, hfirst, hchain, hline, hpara, hstatus⟩ := buildDraft_sound (fs := fs) (t := t) (base := base)
    (asked := asked) (endsPara := endsPara) (text := text) room position nextPara
  refine ⟨hlen, hfirst, hchain, fun a ha => ?_, hpara, hstatus, fun lines => ⟨fun hall => ?_, fun k c hk hc hne hall => ?_⟩⟩
  · obtain ⟨h1, h2, h3, _⟩ := hline a ha
    exact ⟨h1, h2, h3⟩
  · show buildDraft .. = _
    rw [buildDraft_step, if_pos]
    rw [lineBegin, leadingSpaces_of_all, List.length_drop]
    · omega
    · intro c hc
      obtain ⟨j, hj, rfl⟩ := List.mem_iff_getElem.1 hc
      exact hall (position + j) _ (Nat.le_add_right ..) (by rw [← List.getElem?_drop, List.getElem?_eq_getElem hj])
  · have hbegin : lineBegin text position = k := by
      rw [lineBegin, leadingSpaces_eq (k := k - position) (c := c)]
      · omega
      · rw [List.getElem?_drop, show position + (k - position) = k by omega, hc]
      · exact hne
      · intro j d hj hd
        rw [List.getElem?_drop] at hd
        exact hall (position + j) d (by omega) (by omega) hd
    have hlt : ¬ text.length ≤ lineBegin text position := by
      rw [hbegin]
      exact Nat.not_le.2 (List.getElem?_eq_some_iff.1 hc).1
    have hstep := fun room => buildDraft_step fs t text base asked endsPara room position nextPara lines
    simp only [if_neg hlt] at hstep
    refine ⟨(hstep 0).trans ?_, (hstep _).trans ?_⟩
    · rw [hbegin]
    · simp only [draftEnd, draftLine, hbegin]
      rfl

end Sys2Proof.Machine
end

section
/-! PROOF. The glyph pool (R19, R28): runs that rise without overlapping, the first fit, the largest gap and the free
count. -/

namespace Sys2Proof.Machine

/-! ### Runs that rise -/

/-- Runs of blocks, each behind the end of the one before it. -/
abbrev RunsRise (rs : List (Nat × Nat)) : Prop := rs.Pairwise fun a b => a.1 + a.2 ≤ b.1

/-- A block is held by one of the runs. -/
def RunsHold (rs : List (Nat × Nat)) (block : Nat) : Prop := ∃ r ∈ rs, r.1 ≤ block ∧ block < r.1 + r.2

/-- `k` free blocks follow one another from block `b` on. -/
def RunsLeave (rs : List (Nat × Nat)) (k b : Nat) : Prop :=
  b + k ≤ 8192 ∧ ∀ block, b ≤ block → block < b + k → ¬ RunsHold rs block

theorem runsHold_cons (r : Nat × Nat) (rs : List (Nat × Nat)) (block : Nat) :
    RunsHold (r :: rs) block ↔ (r.1 ≤ block ∧ block < r.1 + r.2) ∨ RunsHold rs block := by
  simp [RunsHold]

theorem mem_insertRun (run r : Nat × Nat) (rs : List (Nat × Nat)) : r ∈ insertRun run rs ↔ r = run ∨ r ∈ rs := by
  induction rs with
  | nil => simp [insertRun]
  | cons a rest ih =>
    unfold insertRun
    split
    · simp
    · simp only [List.mem_cons, ih]
      tauto

theorem insertRun_rise {run : Nat × Nat} {rs : List (Nat × Nat)} (hrs : RunsRise rs) (hpos : 1 ≤ run.2)
    (hall : ∀ r ∈ rs, 1 ≤ r.2 ∧ (run.1 + run.2 ≤ r.1 ∨ r.1 + r.2 ≤ run.1)) : RunsRise (insertRun run rs) := by
  induction rs with
  | nil => exact List.pairwise_singleton ..
  | cons a rest ih =>
    obtain ⟨ha, hrest⟩ := List.pairwise_cons.1 hrs
    obtain ⟨⟨hapos, hapart⟩, hall⟩ := List.forall_mem_cons.1 hall
    unfold insertRun
    split
    · refine List.pairwise_cons.2 ⟨fun r hr => ?_, hrs⟩
      rcases List.mem_cons.1 hr with rfl | hr
      · omega
      · have := ha r hr
        omega
    · refine List.pairwise_cons.2 ⟨fun r hr => ?_, ih hrest hall⟩
      rcases (mem_insertRun ..).1 hr with rfl | hr
      · omega
      · exact ha r hr

/-! ### First fit and largest gap -/

/-- Rising runs from a block on, within the pool, none of them empty. -/
structure RunsFrom (start : Nat) (rs : List (Nat × Nat)) : Prop where
  rise : RunsRise rs
  low : ∀ r ∈ rs, start ≤ r.1
  high : ∀ r ∈ rs, 1 ≤ r.2 ∧ r.1 + r.2 ≤ 8192

theorem RunsFrom.tail {start : Nat} {r : Nat × Nat} {rs : List (Nat × Nat)} (h : RunsFrom start (r :: rs)) :
    start ≤ r.1 ∧ 1 ≤ r.2 ∧ r.1 + r.2 ≤ 8192 ∧ RunsFrom (r.1 + r.2) rs :=
  ⟨h.low r (List.mem_cons_self ..), (h.high r (List.mem_cons_self ..)).1, (h.high r (List.mem_cons_self ..)).2,
    (List.pairwise_cons.1 h.rise).2, (List.pairwise_cons.1 h.rise).1, fun a ha => h.high a (List.mem_cons_of_mem _ ha)⟩

/-- Behind a run only the runs after it matter. -/
theorem runsLeave_cons_iff {r : Nat × Nat} {rs : List (Nat × Nat)} {k b : Nat} (hb : r.1 + r.2 ≤ b) :
    RunsLeave (r :: rs) k b ↔ RunsLeave rs k b := by
  simp only [RunsLeave, runsHold_cons]
  refine and_congr_right fun _ => forall_congr' fun block => ?_
  refine forall_congr' fun h1 => forall_congr' fun _ => not_congr (or_iff_right ?_)
  omega

/-- A run that follows leaves room before its first block only. -/
theorem runsLeave_before {r : Nat × Nat} {rs : List (Nat × Nat)} {k b : Nat} (hk : 1 ≤ k) (hr : 1 ≤ r.2)
    (h : RunsLeave (r :: rs) k b) : b + k ≤ r.1 ∨ r.1 + r.2 ≤ b := by
  by_contra hno
  refine h.2 (max b r.1) (by omega) (by omega) ((runsHold_cons ..).2 (.inl ?_))
  omega

theorem firstFit_spec {k start : Nat} {rs : List (Nat × Nat)} (hk : 1 ≤ k) (hs : start ≤ 8192) (h : RunsFrom start rs) :
    (∀ b, firstFit k start rs = some b → start ≤ b ∧ RunsLeave rs k b ∧ ∀ c, start ≤ c → c < b → ¬ RunsLeave rs k c) ∧
      (firstFit k start rs = none → ∀ c, start ≤ c → ¬ RunsLeave rs k c) := by
  induction rs generalizing start with
  | nil =>
    simp only [firstFit, Config.poolBlocks]
    split
    · next hfit =>
      refine ⟨fun b hb => ?_, nofun⟩
      cases hb
      exact ⟨Nat.le_refl _, ⟨hfit, fun _ _ _ => by simp [RunsHold]⟩, fun c h1 h2 => by omega⟩
    · next hfit => exact ⟨nofun, fun _ c hc hl => by have := hl.1; omega⟩
  | cons r rest ih =>
    obtain ⟨hlow, hpos, hhigh, hrest⟩ := h.tail
    have hbelow : ∀ c, start ≤ c → c + k ≤ r.1 → RunsLeave (r :: rest) k c := by
      refine fun c hc hck => ⟨by omega, fun block h1 h2 hheld => ?_⟩
      rcases (runsHold_cons ..).1 hheld with hheld | ⟨a, ha, h3, h4⟩
      · omega
      · have := hrest.low a ha
        omega
    unfold firstFit
    split
    · next hfit =>
      refine ⟨fun b hb => ?_, nofun⟩
      cases hb
      exact ⟨Nat.le_refl _, hbelow start (Nat.le_refl _) hfit, fun c h1 h2 => by omega⟩
    · next hfit =>
      rw [show max start (r.1 + r.2) = r.1 + r.2 by omega]
      obtain ⟨hsome, hnone⟩ := ih hhigh hrest
      have hno : ∀ c, start ≤ c → c < r.1 + r.2 → ¬ RunsLeave (r :: rest) k c := fun c h1 h2 hl => by
        have := runsLeave_before hk hpos hl
        omega
      refine ⟨fun b hb => ?_, fun hn c hc hl => ?_⟩
      · obtain ⟨h1, h2, h3⟩ := hsome b hb
        refine ⟨by omega, (runsLeave_cons_iff h1).2 h2, fun c hc hcb hl => ?_⟩
        rcases Nat.lt_or_ge c (r.1 + r.2) with hlt | hge
        · exact hno c hc hlt hl
        · exact h3 c hge hcb ((runsLeave_cons_iff hge).1 hl)
      · rcases Nat.lt_or_ge c (r.1 + r.2) with hlt | hge
        · exact hno c hc hlt hl
        · exact hnone hn c hge ((runsLeave_cons_iff hge).1 hl)

theorem largestGap_spec {start : Nat} {rs : List (Nat × Nat)} (hs : start ≤ 8192) (h : RunsFrom start rs) :
    (∃ b, start ≤ b ∧ RunsLeave rs (largestGap start rs) b) ∧
      ∀ k b, start ≤ b → RunsLeave rs k b → k ≤ largestGap start rs := by
  induction rs generalizing start with
  | nil =>
    simp only [largestGap, Config.poolBlocks]
    exact ⟨⟨start, Nat.le_refl _, by omega, fun _ _ _ => by simp [RunsHold]⟩, fun k b hb hl => by have := hl.1; omega⟩
  | cons r rest ih =>
    obtain ⟨hlow, hpos, hhigh, hrest⟩ := h.tail
    unfold largestGap
    rw [show max start (r.1 + r.2) = r.1 + r.2 by omega]
    obtain ⟨⟨b, hb, hleave⟩, hmax⟩ := ih hhigh hrest
    refine ⟨?_, fun k c hc hl => ?_⟩
    · rcases Nat.le_total (r.1 - start) (largestGap (r.1 + r.2) rest) with hle | hle
      · rw [Nat.max_eq_right hle]
        exact ⟨b, by omega, (runsLeave_cons_iff hb).2 hleave⟩
      · rw [Nat.max_eq_left hle]
        refine ⟨start, Nat.le_refl _, by omega, fun block h1 h2 hheld => ?_⟩
        rcases (runsHold_cons ..).1 hheld with hheld | ⟨a, ha, h3, h4⟩
        · omega
        · have := hrest.low a ha
          omega
    · rcases Nat.eq_zero_or_pos k with rfl | hk
      · exact Nat.zero_le _
      · rcases runsLeave_before hk hpos hl with h1 | h1
        · omega
        · have := hmax k c h1 ((runsLeave_cons_iff h1).1 hl)
          omega

open Classical in
/-- The free blocks from a block on number what the runs leave. -/
theorem free_count {start : Nat} {rs : List (Nat × Nat)} (hs : start ≤ 8192) (h : RunsFrom start rs) :
    ((List.range' start (8192 - start)).filter fun block => decide (¬ RunsHold rs block)).length +
      (rs.map Prod.snd).sum = 8192 - start := by
  induction rs generalizing start with
  | nil => simp [RunsHold]
  | cons r rest ih =>
    obtain ⟨hlow, hpos, hhigh, hrest⟩ := h.tail
    have hsplit : List.range' start (8192 - start) =
        List.range' start (r.1 - start) ++ (List.range' r.1 r.2 ++ List.range' (r.1 + r.2) (8192 - (r.1 + r.2))) := by
      have hrest : List.range' r.1 (8192 - r.1) = List.range' r.1 r.2 ++ List.range' (r.1 + r.2) (8192 - (r.1 + r.2)) := by
        rw [List.range'_append_1]
        congr 1
        omega
      have hstart := List.range'_append_1 (s := start) (m := r.1 - start) (n := 8192 - r.1)
      rw [show start + (r.1 - start) = r.1 by omega, hrest] at hstart
      rw [hstart]
      congr 1
      omega
    have hfirst : (List.range' start (r.1 - start)).filter (fun block => decide (¬ RunsHold (r :: rest) block)) =
        List.range' start (r.1 - start) := by
      refine List.filter_eq_self.2 fun block hb => ?_
      have := List.mem_range'_1.1 hb
      refine decide_eq_true fun hheld => ?_
      rcases (runsHold_cons ..).1 hheld with hheld | ⟨a, ha, h3, h4⟩
      · omega
      · have := hrest.low a ha
        omega
    have hheld : (List.range' r.1 r.2).filter (fun block => decide (¬ RunsHold (r :: rest) block)) = [] := by
      refine List.filter_eq_nil_iff.2 fun block hb => ?_
      have := List.mem_range'_1.1 hb
      simp only [decide_eq_true_eq, not_not]
      exact (runsHold_cons ..).2 (.inl this)
    have hlast : (List.range' (r.1 + r.2) (8192 - (r.1 + r.2))).filter
          (fun block => decide (¬ RunsHold (r :: rest) block)) =
        (List.range' (r.1 + r.2) (8192 - (r.1 + r.2))).filter fun block => decide (¬ RunsHold rest block) := by
      refine List.filter_congr fun block hb => ?_
      have := List.mem_range'_1.1 hb
      simp only [runsHold_cons, decide_eq_decide]
      refine not_congr (or_iff_right ?_)
      omega
    rw [hsplit, List.filter_append, List.filter_append, hfirst, hheld, hlast]
    have := ih hhigh hrest
    simp only [List.nil_append, List.length_append, List.length_range', List.map_cons, List.sum_cons]
    omega

/-! ### The runs of a directory -/

/-- The runs that a directory's entries hold. -/
def directoryRuns (dir : List Glyph) : List (Nat × Nat) :=
  dir.foldr (fun g rs => match g.firstBlock with
    | some b => insertRun (b, g.blockCount) rs
    | none => rs) []

theorem mem_directoryRuns (dir : List Glyph) (r : Nat × Nat) :
    r ∈ directoryRuns dir ↔ ∃ g ∈ dir, g.firstBlock = some r.1 ∧ r.2 = g.blockCount := by
  induction dir with
  | nil => simp [directoryRuns]
  | cons g rest ih =>
    simp only [directoryRuns, List.foldr_cons] at ih ⊢
    cases hg : g.firstBlock with
    | none => simp [ih, hg]
    | some b =>
      simp only [mem_insertRun, ih, List.exists_mem_cons_iff, hg, Option.some.injEq, Prod.ext_iff]
      tauto

theorem directoryRuns_from {dir : List Glyph} (hapart : dir.Pairwise Glyph.apart) (hsound : ∀ g ∈ dir, g.Sound) :
    RunsFrom 0 (directoryRuns dir) := by
  have hpos : ∀ {g : Glyph} {b : Nat}, g.Sound → g.firstBlock = some b → 1 ≤ g.blockCount := by
    rintro g b ⟨_, _, hnone, _⟩ hb
    exact Nat.one_le_iff_ne_zero.2 fun h => by simp [hnone.2 h] at hb
  refine ⟨?_, fun _ _ => Nat.zero_le _, fun r hr => ?_⟩
  · induction dir with
    | nil => exact List.Pairwise.nil
    | cons g rest ih =>
      obtain ⟨hg, hrest⟩ := List.pairwise_cons.1 hapart
      obtain ⟨hgs, hsrest⟩ := List.forall_mem_cons.1 hsound
      have := ih hrest hsrest
      simp only [directoryRuns, List.foldr_cons] at this ⊢
      cases hb : g.firstBlock with
      | none => exact this
      | some b =>
        refine insertRun_rise this (hpos hgs hb) fun r hr => ?_
        obtain ⟨h, hh, hfirst, hcount⟩ := (mem_directoryRuns rest r).1 hr
        rw [hcount]
        exact ⟨hpos (hsrest h hh) hfirst, hg h hh b r.1 hb hfirst⟩
  · obtain ⟨g, hg, hfirst, hcount⟩ := (mem_directoryRuns dir r).1 hr
    rw [hcount]
    exact ⟨hpos (hsound g hg) hfirst, (hsound g hg).2.2.2 _ hfirst⟩

theorem runsHold_directoryRuns (dir : List Glyph) (block : Nat) : RunsHold (directoryRuns dir) block ↔
    ∃ g ∈ dir, ∃ a, g.firstBlock = some a ∧ a ≤ block ∧ block < a + g.blockCount := by
  constructor
  · rintro ⟨r, hr, h1, h2⟩
    obtain ⟨g, hg, hfirst, hcount⟩ := (mem_directoryRuns dir r).1 hr
    exact ⟨g, hg, r.1, hfirst, h1, hcount ▸ h2⟩
  · rintro ⟨g, hg, a, hfirst, h1, h2⟩
    exact ⟨(a, g.blockCount), (mem_directoryRuns dir _).2 ⟨g, hg, hfirst, rfl⟩, h1, h2⟩

open Classical in
/-- Settles O33: the runs of a sound directory rise through the pool, so the first fit, the largest gap and the free count
are what they are named. -/
theorem poolTakesTheLowestFreeRun : Obligations.PoolTakesTheLowestFreeRun := by
  rintro s ⟨-, -, hapart, hsound, -⟩ held fits
  have hfrom := directoryRuns_from hapart hsound
  have hheld : ∀ block, RunsHold (directoryRuns s.faces.directory) block ↔ held block := runsHold_directoryRuns _
  have hfits : ∀ k b, RunsLeave (directoryRuns s.faces.directory) k b ↔ fits k b := fun k b => by
    simp only [RunsLeave, hheld]
    rfl
  obtain ⟨⟨b, _, hleave⟩, hmax⟩ := largestGap_spec (Nat.zero_le _) hfrom
  refine ⟨fun k hk => ?_, ⟨b, (hfits _ b).1 hleave⟩, fun k b h => hmax k b (Nat.zero_le _) ((hfits k b).2 h), ?_⟩
  · obtain ⟨hsome, hnone⟩ := firstFit_spec hk (Nat.zero_le _) hfrom
    refine ⟨fun b hb => ?_, fun hn c h => hnone hn c (Nat.zero_le _) ((hfits k c).2 h), ?_, fun hle hn => ?_⟩
    · obtain ⟨_, h1, h2⟩ := hsome b hb
      exact ⟨(hfits k b).1 h1, fun c hc h => h2 c (Nat.zero_le _) hc ((hfits k c).2 h)⟩
    · intro hne
      obtain ⟨b, hb⟩ := Option.ne_none_iff_exists'.1 hne
      exact hmax k b (Nat.zero_le _) (hsome b hb).2.1
    · refine hnone hn b (Nat.zero_le _) ⟨?_, fun block h1 h2 => hleave.2 block h1 ?_⟩
      · exact (Nat.add_le_add_left hle b).trans hleave.1
      · exact h2.trans_le (Nat.add_le_add_left hle b)
  · have hcount := free_count (Nat.zero_le _) hfrom
    refine ⟨(List.range' 0 8192).filter fun block => decide (¬ RunsHold (directoryRuns s.faces.directory) block),
      List.Nodup.filter _ List.nodup_range', fun block => ?_, ?_⟩
    · simp [List.mem_range'_1, hheld]
    · show _ = 8192 - ((directoryRuns s.faces.directory).map Prod.snd).sum
      simp only [Nat.sub_zero] at hcount
      omega

end Sys2Proof.Machine
end

section
/-! PROOF. The law of the face store and what each of its acts does to a READY face (R17 to R32). -/

namespace Sys2Proof.Machine

/-! ### The law by its parts -/

/-- The key of one entry stands before that of another (R17). -/
def Glyph.keyBefore (g h : Glyph) : Prop := g.face < h.face ∨ (g.face = h.face ∧ g.code < h.code)

/-- The law of the face store, while `taking` is being taken from the link. -/
structure FaceStore.Sound (fs : FaceStore) (taking : Taking) : Prop where
  length : fs.directory.length ≤ 4096
  order : fs.directory.Pairwise Glyph.keyBefore
  apart : fs.directory.Pairwise Glyph.apart
  entries : ∀ g ∈ fs.directory, g.Sound
  opened : ∀ g ∈ fs.directory, (fs.face g.face).state ≠ .empty
  stream : fs.receiving = none ↔ taking ≠ .glyph
  receiving : ∀ r, fs.receiving = some r → ∃ g ∈ fs.directory, g.face = r.face ∧ g.code = r.code ∧
    r.got < bitmapBytes g.width g.height ∧ (fs.face r.face).state = .loading

theorem State.facesSound_iff (s : State) : s.FacesSound ↔ s.faces.Sound s.link.taking :=
  ⟨fun ⟨h1, h2, h3, h4, h5, h6, h7⟩ => ⟨h1, h2, h3, h4, h5, h6, h7⟩,
    fun ⟨h1, h2, h3, h4, h5, h6, h7⟩ => ⟨h1, h2, h3, h4, h5, h6, h7⟩⟩

/-- The law over fewer entries, all of open faces, with nothing receiving. -/
theorem FaceStore.Sound.restrict {fs fs' : FaceStore} {tk tk' : Taking} (h : fs.Sound tk)
    (hdir : fs'.directory.Sublist fs.directory) (hopen : ∀ g ∈ fs'.directory, (fs'.face g.face).state ≠ .empty)
    (hrec : fs'.receiving = none) (htk : tk' ≠ .glyph) : fs'.Sound tk' :=
  ⟨hdir.length_le.trans h.length, h.order.sublist hdir, h.apart.sublist hdir, fun g hg => h.entries g (hdir.subset hg),
    hopen, ⟨fun _ => htk, fun _ => hrec⟩, fun r hr => by simp [hrec] at hr⟩

theorem find_key_eq {dir : List Glyph} (h : dir.Pairwise Glyph.keyBefore) {g : Glyph} (hg : g ∈ dir) :
    dir.find? (fun k => k.face == g.face && k.code == g.code) = some g := by
  induction dir with
  | nil => simp at hg
  | cons a rest ih =>
    obtain ⟨ha, hrest⟩ := List.pairwise_cons.1 h
    rcases List.mem_cons.1 hg with rfl | hg
    · simp
    · rw [List.find?_cons_of_neg, ih hrest hg]
      have := ha g hg
      simp only [Glyph.keyBefore, Bool.and_eq_true, beq_iff_eq] at this ⊢
      omega

/-- An entry is found by its key. -/
theorem FaceStore.Sound.entry_eq {fs : FaceStore} {tk : Taking} (h : fs.Sound tk) {g : Glyph} (hg : g ∈ fs.directory) :
    fs.entry g.face g.code = some g :=
  find_key_eq h.order hg

theorem FaceStore.Sound.apart_of_ne {fs : FaceStore} {tk : Taking} (h : fs.Sound tk) {g k : Glyph} (hg : g ∈ fs.directory)
    (hk : k ∈ fs.directory) (hne : g ≠ k) : Glyph.apart g k := by
  obtain ⟨i, hi, rfl⟩ := List.mem_iff_getElem.1 hg
  obtain ⟨j, hj, rfl⟩ := List.mem_iff_getElem.1 hk
  have hpair := List.pairwise_iff_getElem.1 h.apart
  rcases Nat.lt_trichotomy i j with hlt | rfl | hlt
  · exact hpair i j hi hj hlt
  · exact absurd rfl hne
  · exact fun a b ha hb => (hpair j i hj hi hlt b a hb ha).symm

/-! ### Steady faces -/

/-- Face `f` is READY. -/
def FaceStore.Ready (fs : FaceStore) (f : Nat) : Prop := (fs.face f).state = .ready

/-- Face `f` has the same record, the same entries, and the same coverage of every pixel of their bitmaps. -/
structure FaceStore.SameFace (f : Nat) (fs fs' : FaceStore) : Prop where
  record : fs'.face f = fs.face f
  entries : (fs'.directory.filter fun g => g.face == f) = fs.directory.filter fun g => g.face == f
  coverage : ∀ g ∈ fs.directory, g.face = f → ∀ i j, i < g.width → j < g.height →
    fs'.coverage g i j = fs.coverage g i j

/-- A face that is READY in the end was READY, and is the same. -/
def FaceStore.Steady (f : Nat) (fs fs' : FaceStore) : Prop := fs'.Ready f → fs.Ready f ∧ fs.SameFace f fs'

theorem FaceStore.SameFace.of_pool {f : Nat} {fs fs' : FaceStore} (hface : fs'.face f = fs.face f)
    (hdir : (fs'.directory.filter fun g => g.face == f) = fs.directory.filter fun g => g.face == f)
    (hpool : fs'.pool = fs.pool) : fs.SameFace f fs' :=
  ⟨hface, hdir, fun g _ _ i j _ _ => by simp only [FaceStore.coverage, hpool]⟩

theorem FaceStore.SameFace.refl (f : Nat) (fs : FaceStore) : fs.SameFace f fs := .of_pool rfl rfl rfl

theorem FaceStore.SameFace.trans {f : Nat} {a b c : FaceStore} (h : a.SameFace f b) (k : b.SameFace f c) :
    a.SameFace f c := by
  refine ⟨k.record.trans h.record, k.entries.trans h.entries, fun g hg hf i j hi hj => ?_⟩
  have hb : g ∈ b.directory := by
    have : g ∈ b.directory.filter fun g => g.face == f := by
      rw [h.entries]
      exact List.mem_filter.2 ⟨hg, by simp [hf]⟩
    exact (List.mem_filter.1 this).1
  rw [k.coverage g hb hf i j hi hj, h.coverage g hg hf i j hi hj]

theorem FaceStore.Steady.refl (f : Nat) (fs : FaceStore) : fs.Steady f fs := fun h => ⟨h, .refl f fs⟩

theorem FaceStore.Steady.trans {f : Nat} {a b c : FaceStore} (h : a.Steady f b) (k : b.Steady f c) : a.Steady f c := by
  intro hc
  obtain ⟨hb, hbc⟩ := k hc
  obtain ⟨ha, hab⟩ := h hb
  exact ⟨ha, hab.trans hbc⟩

/-! ### The record of a face -/

theorem FaceStore.face_setFace (fs : FaceStore) (f k : Nat) (r : Face) :
    (fs.setFace f r).face k = if k = f ∧ f < 16 then r else fs.face k := by
  unfold FaceStore.face FaceStore.setFace
  by_cases hk : k = f
  · subst hk
    by_cases h : k < 16
    · rw [if_pos ⟨rfl, h⟩, look_put_self _ _ _ _ h]
    · rw [if_neg (fun h' => h h'.2), look_of_ge _ _ _ (by omega), look_of_ge _ _ _ (by omega)]
  · rw [if_neg (fun h => hk h.1), look_put_other _ _ _ _ _ hk]

theorem FaceStore.face_emptyFace (fs : FaceStore) (f k : Nat) :
    (fs.emptyFace f).face k = if k = f ∧ f < 16 then .blank else fs.face k := fs.face_setFace f k .blank

/-! ### The acts -/

theorem FaceStore.discardReceiving_directory (fs : FaceStore) : fs.discardReceiving.directory =
    match fs.receiving with
    | none => fs.directory
    | some r => removeGlyph r.face r.code fs.directory := by
  cases h : fs.receiving <;> simp [FaceStore.discardReceiving, h]

theorem FaceStore.discardReceiving_rest (fs : FaceStore) : fs.discardReceiving.faces = fs.faces ∧
    fs.discardReceiving.pool = fs.pool ∧ fs.discardReceiving.receiving = none := by
  unfold FaceStore.discardReceiving
  split
  · next h => exact ⟨rfl, rfl, h⟩
  · exact ⟨rfl, rfl, rfl⟩

theorem FaceStore.Sound.discard {fs : FaceStore} {tk tk' : Taking} (h : fs.Sound tk) (htk : tk' ≠ .glyph) :
    fs.discardReceiving.Sound tk' := by
  obtain ⟨hfaces, _, hrec⟩ := fs.discardReceiving_rest
  have hdir : fs.discardReceiving.directory.Sublist fs.directory := by
    rw [fs.discardReceiving_directory]
    split
    · exact .refl _
    · exact List.filter_sublist
  refine h.restrict hdir (fun g hg => ?_) hrec htk
  have : fs.discardReceiving.face g.face = fs.face g.face := by rw [FaceStore.face, hfaces]; rfl
  rw [this]
  exact h.opened g (hdir.subset hg)

/-- A discarded glyph is one of a LOADING face. -/
theorem FaceStore.Sound.discard_steady {fs : FaceStore} {tk : Taking} (h : fs.Sound tk) (f : Nat) :
    fs.Steady f fs.discardReceiving := by
  obtain ⟨hfaces, hpool, _⟩ := fs.discardReceiving_rest
  have hface : fs.discardReceiving.face f = fs.face f := by rw [FaceStore.face, hfaces]; rfl
  intro hready
  have hready : fs.Ready f := by rw [FaceStore.Ready, ← hface]; exact hready
  refine ⟨hready, .of_pool hface ?_ hpool⟩
  rw [fs.discardReceiving_directory]
  split
  · rfl
  · next r hr =>
    obtain ⟨_, _, _, _, _, hload⟩ := h.receiving r hr
    have hne : r.face ≠ f := by
      rintro rfl
      rw [FaceStore.Ready, hload] at hready
      cases hready
    simp only [removeGlyph, List.filter_filter]
    refine List.filter_congr fun g _ => ?_
    by_cases hg : g.face = f
    · simp [hg, Ne.symm hne]
    · simp [hg]

theorem FaceStore.Sound.emptyFace {fs : FaceStore} {tk : Taking} (h : fs.Sound tk) (htk : tk ≠ .glyph) (f : Nat) :
    (fs.emptyFace f).Sound tk := by
  refine h.restrict List.filter_sublist (fun g hg => ?_) (h.stream.2 htk) htk
  obtain ⟨hg, hne⟩ := List.mem_filter.1 hg
  have hne : g.face ≠ f := by simpa using hne
  rw [fs.face_emptyFace, if_neg fun h => hne h.1]
  exact h.opened g hg

theorem FaceStore.emptyFace_steady (fs : FaceStore) (f k : Nat) (hf : f < 16) : fs.Steady k (fs.emptyFace f) := by
  intro hready
  rw [FaceStore.Ready, fs.face_emptyFace] at hready
  have hne : k ≠ f := by
    rintro rfl
    rw [if_pos ⟨rfl, hf⟩] at hready
    cases hready
  rw [if_neg fun h => hne h.1] at hready
  refine ⟨hready, .of_pool ?_ ?_ rfl⟩
  · rw [fs.face_emptyFace, if_neg fun h => hne h.1]
  · simp only [FaceStore.emptyFace, List.filter_filter]
    refine List.filter_congr fun g _ => ?_
    by_cases hg : g.face = k
    · simp [hg, hne]
    · simp [hg]

/-- A face may take a record that is not EMPTY while nothing receives. -/
theorem FaceStore.Sound.setFace {fs : FaceStore} {tk : Taking} (h : fs.Sound tk) (htk : tk ≠ .glyph) (f : Nat) {r : Face}
    (hr : r.state ≠ .empty) : (fs.setFace f r).Sound tk := by
  refine h.restrict (.refl _) (fun g hg => ?_) (h.stream.2 htk) htk
  rw [fs.face_setFace]
  split
  · exact hr
  · exact h.opened g hg

theorem FaceStore.setFace_same (fs : FaceStore) {f k : Nat} (r : Face) (hne : k ≠ f) :
    fs.SameFace k (fs.setFace f r) :=
  .of_pool (by rw [fs.face_setFace, if_neg fun h => hne h.1]) rfl rfl

theorem FaceStore.setFace_steady (fs : FaceStore) {f : Nat} (k : Nat) {r : Face} (hf : f < 16) (hr : r.state ≠ .ready) :
    fs.Steady k (fs.setFace f r) := by
  intro hready
  rw [FaceStore.Ready, fs.face_setFace] at hready
  split at hready
  · exact absurd hready hr
  · next h => exact ⟨hready, fs.setFace_same r fun hk => h ⟨hk, hf⟩⟩

theorem FaceStore.Sound.afterResetCommand {fs : FaceStore} {tk tk' : Taking} (h : fs.Sound tk) (htk : tk' ≠ .glyph) :
    fs.afterResetCommand.Sound tk' := by
  refine h.restrict List.filter_sublist (fun g hg => ?_) rfl htk
  obtain ⟨_, hready⟩ := List.mem_filter.1 hg
  have hready : (fs.face g.face).state = .ready := by simpa using hready
  have : fs.afterResetCommand.face g.face = fs.face g.face := by
    refine (look_mapAll (fun r : Face => if r.state = .ready then r else .blank) fs.faces g.face .blank).trans ?_
    exact if_pos hready
  rw [this, hready]
  nofun

theorem FaceStore.face_afterResetCommand (fs : FaceStore) (f : Nat) :
    fs.afterResetCommand.face f = if (fs.face f).state = .ready then fs.face f else .blank :=
  look_mapAll (fun r : Face => if r.state = .ready then r else .blank) fs.faces f .blank

theorem FaceStore.afterResetCommand_steady (fs : FaceStore) (f : Nat) : fs.Steady f fs.afterResetCommand := by
  intro hready
  rw [FaceStore.Ready, fs.face_afterResetCommand] at hready
  split at hready
  · next h =>
    refine ⟨h, .of_pool (by rw [fs.face_afterResetCommand, if_pos h]) ?_ rfl⟩
    simp only [FaceStore.afterResetCommand, List.filter_filter]
    refine List.filter_congr fun g _ => ?_
    by_cases hg : g.face = f
    · simp [hg, h]
    · simp [hg]
  · cases hready

/-! ### GLYPH PUT -/

theorem mem_removeGlyph {face code : Nat} {dir : List Glyph} {g : Glyph} :
    g ∈ removeGlyph face code dir ↔ g ∈ dir ∧ ¬ (g.face = face ∧ g.code = code) := by
  simp only [removeGlyph, List.mem_filter, Bool.not_eq_true', Bool.and_eq_false_iff, beq_eq_false_iff_ne, ne_eq, not_and_or]

theorem placeGlyph_perm (g : Glyph) (dir : List Glyph) : (placeGlyph g dir).Perm (g :: dir) := by
  induction dir with
  | nil => exact .refl _
  | cons h rest ih =>
    unfold placeGlyph
    split
    · exact .refl _
    · exact (ih.cons h).trans (.swap ..)

theorem placeGlyph_order {g : Glyph} {dir : List Glyph} (h : dir.Pairwise Glyph.keyBefore)
    (hnew : ∀ k ∈ dir, ¬ (k.face = g.face ∧ k.code = g.code)) : (placeGlyph g dir).Pairwise Glyph.keyBefore := by
  induction dir with
  | nil => exact List.pairwise_singleton ..
  | cons a rest ih =>
    obtain ⟨ha, hrest⟩ := List.pairwise_cons.1 h
    obtain ⟨hne, hnew⟩ := List.forall_mem_cons.1 hnew
    unfold placeGlyph
    simp only [Glyph.keyBefore] at ha
    split
    · next hbefore =>
      have hbefore : g.keyBefore a := hbefore
      refine List.pairwise_cons.2 ⟨fun k hk => ?_, h⟩
      rcases List.mem_cons.1 hk with rfl | hk
      · exact hbefore
      · have := ha k hk
        unfold Glyph.keyBefore at hbefore ⊢
        omega
    · next hafter =>
      refine List.pairwise_cons.2 ⟨fun k hk => ?_, ih hrest hnew⟩
      rcases List.mem_cons.1 ((placeGlyph_perm g rest).mem_iff.1 hk) with rfl | hk
      · unfold Glyph.keyBefore
        omega
      · exact ha k hk

/-- The face store with an entry made or replaced (R22). -/
def FaceStore.accept (fs : FaceStore) (g : Glyph) (run : Option Nat) : FaceStore :=
  { fs with
    directory := placeGlyph { g with firstBlock := run } (removeGlyph g.face g.code fs.directory)
    receiving := if bitmapBytes g.width g.height = 0 then none else some ⟨g.face, g.code, 0⟩ }

/-- What an accepted header's entry and run are, judged in the store as it stands. -/
structure FaceStore.Accepts (fs : FaceStore) (g : Glyph) (run : Option Nat) : Prop where
  face : g.face ≤ 15
  loading : (fs.face g.face).state = .loading
  blocks : g.blockCount = bitmapBlocks g.width g.height
  room : (fs.entry g.face g.code).isNone = true → fs.directory.length < 4096
  run : (g.blockCount = 0 ∧ run = none) ∨ (1 ≤ g.blockCount ∧ run ≠ none ∧ fs.freeRun g.blockCount = run)

theorem removeGlyph_length_lt {face code : Nat} {dir : List Glyph} {k : Glyph} (hk : k ∈ dir) (hf : k.face = face)
    (hc : k.code = code) : (removeGlyph face code dir).length < dir.length := by
  rcases Nat.lt_or_ge (removeGlyph face code dir).length dir.length with h | h
  · exact h
  · have := List.filter_sublist.eq_of_length_le h
    rw [← this] at hk
    exact absurd ⟨hf, hc⟩ (mem_removeGlyph.1 hk).2

theorem FaceStore.Sound.accept {fs : FaceStore} {tk : Taking} (h : fs.Sound tk) {g : Glyph} {run : Option Nat}
    (ha : fs.Accepts g run) :
    (fs.accept g run).Sound (if bitmapBytes g.width g.height = 0 then .ignoring else .glyph) := by
  have hperm := placeGlyph_perm { g with firstBlock := run } (removeGlyph g.face g.code fs.directory)
  have hsub : (removeGlyph g.face g.code fs.directory).Sublist fs.directory := List.filter_sublist
  have hrun : ∀ a, run = some a → a + g.blockCount ≤ 8192 ∧ ∀ k ∈ fs.directory, ∀ b, k.firstBlock = some b →
      a + g.blockCount ≤ b ∨ b + k.blockCount ≤ a := by
    intro a hrun
    obtain ⟨_, rfl⟩ | ⟨hpos, _, hfree⟩ := ha.run
    · cases hrun
    · have hfrom := directoryRuns_from h.apart h.entries
      obtain ⟨_, ⟨hend, hleave⟩, _⟩ := (firstFit_spec hpos (Nat.zero_le _) hfrom).1 a (hfree.trans hrun)
      refine ⟨hend, fun k hk b hb => ?_⟩
      have hkpos : 1 ≤ k.blockCount := Nat.one_le_iff_ne_zero.2 fun hz => by
        simp [(h.entries k hk).2.2.1.2 hz] at hb
      by_contra hno
      exact hleave (max a b) (by omega) (by omega) ((runsHold_directoryRuns ..).2 ⟨k, hk, b, hb, by omega, by omega⟩)
  refine ⟨?_, ?_, ?_, ?_, ?_, ?_, ?_⟩
  · show (placeGlyph ..).length ≤ 4096
    rw [hperm.length_eq, List.length_cons]
    by_cases hnew : (fs.entry g.face g.code).isNone = true
    · have := ha.room hnew
      have := hsub.length_le
      omega
    · obtain ⟨k, hk⟩ := Option.ne_none_iff_exists'.1 (by simpa using hnew)
      obtain ⟨hmem, hf, hc⟩ := FaceStore.entry_some hk
      have := removeGlyph_length_lt hmem hf hc
      have := h.length
      omega
  · exact placeGlyph_order (h.order.sublist hsub) fun k hk => (mem_removeGlyph.1 hk).2
  · refine (hperm.pairwise_iff fun {a b} hab x y hx hy => (hab y x hy hx).symm).2
      (List.pairwise_cons.2 ⟨fun k hk a b hra hb => ?_, h.apart.sublist hsub⟩)
    exact (hrun a hra).2 k (mem_removeGlyph.1 hk).1 b hb
  · intro k hk
    rcases List.mem_cons.1 (hperm.mem_iff.1 hk) with rfl | hk
    · refine ⟨ha.face, ha.blocks, ?_, fun a hra => (hrun a hra).1⟩
      obtain ⟨hz, rfl⟩ | ⟨hpos, hne, _⟩ := ha.run
      · simpa using hz
      · simp only [hne, false_iff]
        omega
    · exact h.entries k (mem_removeGlyph.1 hk).1
  · intro k hk
    rcases List.mem_cons.1 (hperm.mem_iff.1 hk) with rfl | hk
    · show (fs.face g.face).state ≠ .empty
      rw [ha.loading]
      nofun
    · exact h.opened k (mem_removeGlyph.1 hk).1
  · simp only [FaceStore.accept]
    split <;> simp
  · intro r hr
    simp only [FaceStore.accept] at hr
    split at hr
    · cases hr
    · next hbytes =>
      cases hr
      exact ⟨_, hperm.mem_iff.2 (List.mem_cons_self ..), rfl, rfl, Nat.pos_of_ne_zero hbytes, ha.loading⟩

/-- An accepted glyph is one of a LOADING face. -/
theorem FaceStore.accept_steady {fs : FaceStore} {g : Glyph} {run : Option Nat} (ha : fs.Accepts g run) (f : Nat)
    : fs.Steady f (fs.accept g run) := by
  intro hready
  have hready : fs.Ready f := hready
  have hne : g.face ≠ f := by
    rintro rfl
    rw [FaceStore.Ready, ha.loading] at hready
    cases hready
  refine ⟨hready, .of_pool rfl ?_ rfl⟩
  have place : ∀ dir : List Glyph, ((placeGlyph { g with firstBlock := run } dir).filter fun k => k.face == f) =
      dir.filter fun k => k.face == f := by
    intro dir
    induction dir with
    | nil => simp [placeGlyph, hne]
    | cons a rest ih =>
      unfold placeGlyph
      split
      · simp [List.filter_cons, hne]
      · simp only [List.filter_cons, ih]
  simp only [FaceStore.accept, place, removeGlyph, List.filter_filter]
  refine List.filter_congr fun k _ => ?_
  by_cases hk : k.face = f
  · simp [hk, Ne.symm hne]
  · simp [hk]

/-! ### Bitmap bytes -/

theorem bitmapBytes_le (w h : Nat) : bitmapBytes w h ≤ 128 * bitmapBlocks w h := by
  unfold bitmapBlocks
  omega

/-- The face store with one byte of the receiving glyph written; `next` is what receives from now on (R23). -/
def FaceStore.writeByte (fs : FaceStore) (g : Glyph) (r : Receiving) (b : Byte) (next : Option Receiving) : FaceStore :=
  { fs with
    pool := Memory.write (Config.blockBytes * g.firstBlock.getD 0 + r.got) b fs.pool
    receiving := next }

/-- The glyph that receives is an entry with a run, in a LOADING face. -/
theorem FaceStore.Sound.receiving_entry {fs : FaceStore} {tk : Taking} (h : fs.Sound tk) {r : Receiving} {g : Glyph}
    (hr : fs.receiving = some r) (hg : fs.entry r.face r.code = some g) :
    g ∈ fs.directory ∧ r.got < bitmapBytes g.width g.height ∧ (fs.face g.face).state = .loading ∧
      ∃ first, g.firstBlock = some first ∧ r.got < 128 * g.blockCount := by
  obtain ⟨k, hk, hf, hc, hgot, hload⟩ := h.receiving r hr
  obtain rfl : g = k := by
    rw [← hf, ← hc, h.entry_eq hk] at hg
    exact (Option.some.inj hg).symm
  obtain ⟨_, hblocks, hnone, _⟩ := h.entries g hk
  have hle := bitmapBytes_le g.width g.height
  rw [← hblocks] at hle
  have hne : g.firstBlock ≠ none := fun h => by have := hnone.1 h; omega
  obtain ⟨first, hfirst⟩ := Option.ne_none_iff_exists'.1 hne
  exact ⟨hk, hgot, hf ▸ hload, first, hfirst, by omega⟩

/-- Every byte of an entry's bitmap lies in its run. -/
theorem FaceStore.coverage_congr {fs fs' : FaceStore} {g : Glyph} (hg : g.Sound)
    (hpool : ∀ first, g.firstBlock = some first → ∀ k, k < 128 * g.blockCount →
      fs'.pool.read (128 * first + k) = fs.pool.read (128 * first + k)) {i j : Nat} (hi : i < g.width)
    (hj : j < g.height) : fs'.coverage g i j = fs.coverage g i j := by
  unfold FaceStore.coverage
  split
  · rfl
  · next first hfirst =>
    have hk : (j * g.width + i) / 2 < 128 * g.blockCount := by
      have h1 : j * g.width + i < g.width * g.height := by
        calc j * g.width + i < j * g.width + g.width := Nat.add_lt_add_left hi _
          _ = (j + 1) * g.width := by rw [Nat.add_mul, Nat.one_mul]
          _ ≤ g.height * g.width := Nat.mul_le_mul_right _ hj
          _ = g.width * g.height := Nat.mul_comm ..
      have h2 := bitmapBytes_le g.width g.height
      rw [← hg.2.1] at h2
      simp only [bitmapBytes] at h2
      omega
    have := hpool first hfirst _ hk
    simp only [Config.blockBytes, this]

theorem FaceStore.Sound.writeByte_steady {fs : FaceStore} {tk : Taking} (h : fs.Sound tk) (hpool : fs.pool.wf = true)
    {r : Receiving} {g : Glyph} (hr : fs.receiving = some r) (hg : fs.entry r.face r.code = some g) (b : Byte)
    (next : Option Receiving) (f : Nat) : fs.Steady f (fs.writeByte g r b next) := by
  intro hready
  have hready : fs.Ready f := hready
  obtain ⟨hmem, hgot, hload, first, hfirst, hblock⟩ := h.receiving_entry hr hg
  refine ⟨hready, rfl, rfl, fun k hk hf i j hi hj => ?_⟩
  refine FaceStore.coverage_congr (h.entries k hk) (fun other hother n hn => ?_) hi hj
  have hne : g ≠ k := by
    rintro rfl
    rw [FaceStore.Ready, ← hf, hload] at hready
    cases hready
  refine Memory.read_write_other _ _ _ _ 0 hpool ?_
  simp only [hfirst, Option.getD_some, Config.blockBytes]
  rcases h.apart_of_ne hmem hk hne first other hfirst hother with hle | hle <;>
    · have := Nat.mul_le_mul_left 128 hle
      rw [Nat.mul_add] at this
      omega

theorem FaceStore.Sound.writeByte_more {fs : FaceStore} (h : fs.Sound .glyph) {r : Receiving} {g : Glyph}
    (hr : fs.receiving = some r) (hg : fs.entry r.face r.code = some g) (b : Byte)
    (hmore : r.got + 1 < bitmapBytes g.width g.height) :
    (fs.writeByte g r b (some { r with got := r.got + 1 })).Sound .glyph := by
  obtain ⟨hmem, _, hload, _⟩ := h.receiving_entry hr hg
  obtain ⟨_, hf, hc⟩ := FaceStore.entry_some hg
  refine ⟨h.length, h.order, h.apart, h.entries, h.opened, by simp [FaceStore.writeByte], fun r' hr' => ?_⟩
  cases hr'
  exact ⟨g, hmem, hf, hc, hmore, hf ▸ hload⟩

theorem FaceStore.Sound.writeByte_last {fs : FaceStore} {tk tk' : Taking} (h : fs.Sound tk) (r : Receiving) (g : Glyph)
    (b : Byte) (htk : tk' ≠ .glyph) : (fs.writeByte g r b none).Sound tk' :=
  h.restrict (.refl _) h.opened rfl htk

/-- The face store of power-on and the RESET pin. -/
theorem FaceStore.initial_sound {tk : Taking} (htk : tk ≠ .glyph) : FaceStore.initial.Sound tk :=
  ⟨Nat.zero_le _, .nil, .nil, nofun, nofun, ⟨fun _ => htk, fun _ => rfl⟩, nofun⟩

theorem FaceStore.initial_not_ready (f : Nat) : ¬ FaceStore.initial.Ready f := by
  simp [FaceStore.Ready, FaceStore.face, FaceStore.initial, Face.blank]

end Sys2Proof.Machine
end

section
/-! PROOF. The mark table and the render list: their orders, and what an insertion, a removal and a listing do to them
(R60 to R63, R73, R91). -/

namespace Sys2Proof.Machine

/-! ### The order of the table -/

theorem Mark.before_iff (a b : Mark) : a.before b = true ↔ a.start < b.start ∨ (a.start = b.start ∧ a.id < b.id) := by
  simp [Mark.before]

theorem insertMark_perm (m : Mark) (table : List Mark) : (insertMark m table).Perm (m :: table) := by
  induction table with
  | nil => exact .refl _
  | cons h rest ih =>
    unfold insertMark
    split
    · exact .refl _
    · exact (ih.cons h).trans (.swap ..)

theorem insertMark_order {m : Mark} {table : List Mark} (h : table.Pairwise fun a b => a.before b = true)
    (hnew : ∀ k ∈ table, k.id ≠ m.id) : (insertMark m table).Pairwise fun a b => a.before b = true := by
  induction table with
  | nil => exact List.pairwise_singleton ..
  | cons a rest ih =>
    obtain ⟨ha, hrest⟩ := List.pairwise_cons.1 h
    obtain ⟨hne, hnew⟩ := List.forall_mem_cons.1 hnew
    unfold insertMark
    split
    · next hbefore =>
      refine List.pairwise_cons.2 ⟨fun k hk => ?_, h⟩
      rcases List.mem_cons.1 hk with rfl | hk
      · exact hbefore
      · have := ha k hk
        simp only [Mark.before_iff] at hbefore this ⊢
        omega
    · next hafter =>
      refine List.pairwise_cons.2 ⟨fun k hk => ?_, ih hrest hnew⟩
      rcases List.mem_cons.1 ((insertMark_perm m rest).mem_iff.1 hk) with rfl | hk
      · simp only [Mark.before_iff] at hafter ⊢
        omega
      · exact ha k hk

/-- The law of a mark table (R60, R61). -/
structure TableSound (table : List Mark) : Prop where
  order : table.Pairwise fun a b => a.before b = true
  ids : (table.map Mark.id).Nodup
  length : table.length ≤ 512
  fields : ∀ m ∈ table, m.InRange

theorem TableSound.nil : TableSound [] := ⟨.nil, .nil, Nat.zero_le _, nofun⟩

theorem TableSound.sublist {a b : List Mark} (h : TableSound b) (hab : a.Sublist b) : TableSound a :=
  ⟨h.order.sublist hab, (hab.map _).nodup h.ids, hab.length_le.trans h.length, fun m hm => h.fields m (hab.subset hm)⟩

theorem TableSound.insert {table : List Mark} (h : TableSound table) {m : Mark} (hnew : ∀ k ∈ table, k.id ≠ m.id)
    (hroom : table.length < 512) (hm : m.InRange) : TableSound (insertMark m table) := by
  have hperm := insertMark_perm m table
  refine ⟨insertMark_order h.order hnew, (hperm.map _).nodup_iff.2 (List.nodup_cons.2 ⟨?_, h.ids⟩), ?_, fun k hk => ?_⟩
  · rintro hmem
    obtain ⟨k, hk, hid⟩ := List.mem_map.1 hmem
    exact hnew k hk hid
  · rw [hperm.length_eq]
    exact hroom
  · rcases List.mem_cons.1 (hperm.mem_iff.1 hk) with rfl | hk
    · exact hm
    · exact h.fields k hk

/-- A table whose records are given others of the same key and with fields in range. -/
theorem TableSound.map {table : List Mark} (h : TableSound table) (f : Mark → Mark)
    (hkey : ∀ m, (f m).id = m.id ∧ (f m).start = m.start) (hf : ∀ m ∈ table, (f m).InRange) :
    TableSound (table.map f) := by
  refine ⟨List.pairwise_map.2 (h.order.imp fun {a b} hab => ?_), ?_, by simpa using h.length, ?_⟩
  · rw [Mark.before_iff, (hkey a).1, (hkey a).2, (hkey b).1, (hkey b).2, ← Mark.before_iff]
    exact hab
  · rw [List.map_map, show Mark.id ∘ f = Mark.id from funext fun m => (hkey m).1]
    exact h.ids
  · intro m hm
    obtain ⟨k, hk, rfl⟩ := List.mem_map.1 hm
    exact hf k hk

theorem TableSound.onLines {table : List Mark} (h : TableSound table) (lines : LineTable) :
    TableSound (table.map (Mark.onLines lines)) :=
  h.map _ (fun _ => ⟨rfl, rfl⟩) fun m hm => h.fields m hm

theorem TableSound.offPage {table : List Mark} (h : TableSound table) :
    TableSound (table.map fun m => { m with onPage := false }) :=
  h.map _ (fun _ => ⟨rfl, rfl⟩) fun m hm => h.fields m hm

/-! ### Finding a record -/

theorem findMark_some {id : Nat} {table : List Mark} {m : Mark} (h : findMark id table = some m) :
    m ∈ table ∧ m.id = id :=
  ⟨List.mem_of_find?_eq_some h, by simpa using List.find?_some h⟩

theorem findMark_eq_none {id : Nat} {table : List Mark} : findMark id table = none ↔ ∀ m ∈ table, m.id ≠ id := by
  simp [findMark]

theorem findMark_eq_some {id : Nat} {table : List Mark} (hids : (table.map Mark.id).Nodup) {m : Mark} (hm : m ∈ table)
    (hid : m.id = id) : findMark id table = some m := by
  cases hfind : findMark id table with
  | none => exact absurd hid (findMark_eq_none.1 hfind m hm)
  | some k =>
    obtain ⟨hk, hkid⟩ := findMark_some hfind
    rw [List.inj_on_of_nodup_map hids hk hm (hkid.trans hid.symm)]

theorem mem_removeMark {id : Nat} {table : List Mark} {m : Mark} : m ∈ removeMark id table ↔ m ∈ table ∧ m.id ≠ id := by
  simp [removeMark]

/-- Changing the record of an id is removing it and adding the changed one. -/
theorem map_id_perm {id : Nat} {table : List Mark} (hids : (table.map Mark.id).Nodup) (f : Mark → Mark) {m : Mark}
    (hm : findMark id table = some m) :
    (table.map fun k => if k.id = id then f k else k).Perm (f m :: removeMark id table) := by
  induction table with
  | nil => simp [findMark] at hm
  | cons a rest ih =>
    obtain ⟨ha, hids⟩ := List.nodup_cons.1 hids
    by_cases hid : a.id = id
    · have hrest : ∀ k ∈ rest, k.id ≠ id := fun k hk h => ha (List.mem_map.2 ⟨k, hk, h.trans hid.symm⟩)
      obtain rfl : a = m := by simpa [findMark, hid] using hm
      have hmap : rest.map (fun k => if k.id = id then f k else k) = rest := by
        refine (List.map_congr_left fun k hk => if_neg (hrest k hk)).trans (List.map_id _)
      have hrem : removeMark id (a :: rest) = rest := by
        simp only [removeMark, List.filter_cons, hid, beq_self_eq_true, Bool.not_true, Bool.false_eq_true, if_false]
        exact List.filter_eq_self.2 fun k hk => by simp [hrest k hk]
      rw [List.map_cons, if_pos hid, hmap, hrem]
    · have hm : findMark id rest = some m := by simpa [findMark, hid] using hm
      have hrem : removeMark id (a :: rest) = a :: removeMark id rest := by simp [removeMark, hid]
      rw [List.map_cons, if_neg hid, hrem]
      exact ((ih hids hm).cons a).trans (.swap ..)

theorem removeMark_length_lt {id : Nat} {table : List Mark} {m : Mark} (hm : m ∈ table) (hid : m.id = id) :
    (removeMark id table).length < table.length := by
  rcases Nat.lt_or_ge (removeMark id table).length table.length with h | h
  · exact h
  · have := List.filter_sublist.eq_of_length_le h
    rw [← this] at hm
    exact absurd hid (mem_removeMark.1 hm).2

/-! ### The render list (R91) -/

/-- A slot is listed, with some cause. -/
def Lists (list : List (Nat × Cause)) (slot : Nat) : Prop := ∃ cause, (slot, cause) ∈ list

theorem lists_cons (e : Nat × Cause) (list : List (Nat × Cause)) (slot : Nat) :
    Lists (e :: list) slot ↔ slot = e.1 ∨ Lists list slot := by
  simp only [Lists, List.mem_cons, exists_or]
  refine or_congr_left ⟨?_, ?_⟩
  · rintro ⟨c, rfl⟩
    rfl
  · rintro rfl
    exact ⟨e.2, rfl⟩

theorem lists_listSlot (slot : Nat) (cause : Cause) (list : List (Nat × Cause)) (k : Nat) :
    Lists (listSlot slot cause list) k ↔ k = slot ∨ Lists list k := by
  induction list with
  | nil => simp [listSlot, lists_cons]
  | cons e rest ih =>
    unfold listSlot
    split
    · simp [lists_cons]
    · split
      · next h =>
        simp only [lists_cons, h]
        tauto
      · simp only [lists_cons, ih]
        tauto

theorem lists_foldl (test : Nat → Bool) (cause : Cause) (slots : List Nat) (list : List (Nat × Cause)) (k : Nat) :
    Lists (slots.foldl (fun l slot => if test slot then listSlot slot cause l else l) list) k ↔
      Lists list k ∨ (k ∈ slots ∧ test k = true) := by
  induction slots generalizing list with
  | nil => simp
  | cons a rest ih =>
    rw [List.foldl_cons, ih]
    by_cases ha : test a = true
    · rw [if_pos ha, lists_listSlot]
      constructor
      · rintro ((rfl | h) | ⟨h, ht⟩)
        · exact .inr ⟨List.mem_cons_self .., ha⟩
        · exact .inl h
        · exact .inr ⟨List.mem_cons_of_mem _ h, ht⟩
      · rintro (h | ⟨h, ht⟩)
        · exact .inl (.inr h)
        · rcases List.mem_cons.1 h with rfl | h
          · exact .inl (.inl rfl)
          · exact .inr ⟨h, ht⟩
    · rw [if_neg ha]
      refine or_congr_right ⟨fun ⟨h, ht⟩ => ⟨List.mem_cons_of_mem _ h, ht⟩, fun ⟨h, ht⟩ => ?_⟩
      rcases List.mem_cons.1 h with rfl | h
      · exact absurd ht ha
      · exact ⟨h, ht⟩

/-- The slots that are listed once every slot of a test is. -/
theorem lists_listSlots (test : Nat → Bool) (cause : Cause) (list : List (Nat × Cause)) (k : Nat) :
    Lists (listSlots test cause list) k ↔ Lists list k ∨ (k < 210 ∧ test k = true) := by
  rw [listSlots, lists_foldl, List.mem_range]

/-- Listing a slot with cause MARK makes no entry a PAGE one. -/
theorem page_mem_listSlot_mark (slot : Nat) (list : List (Nat × Cause)) (k : Nat) :
    (k, Cause.page) ∈ listSlot slot .mark list ↔ (k, Cause.page) ∈ list := by
  induction list with
  | nil => simp [listSlot]
  | cons e rest ih =>
    have hjoin : ∀ c : Cause, c.join .mark = c := fun c => by cases c <;> rfl
    unfold listSlot
    split
    · simp
    · split
      · simp [hjoin]
      · simp [ih]

theorem page_mem_listSlots_mark (test : Nat → Bool) (list : List (Nat × Cause)) (k : Nat) :
    (k, Cause.page) ∈ listSlots test .mark list ↔ (k, Cause.page) ∈ list := by
  unfold listSlots
  generalize List.range 210 = slots
  induction slots generalizing list with
  | nil => rfl
  | cons a rest ih =>
    rw [List.foldl_cons, ih]
    split
    · exact page_mem_listSlot_mark ..
    · rfl

/-- Listing no slot leaves the list. -/
theorem listSlots_eq_self {test : Nat → Bool} (h : ∀ slot, slot < 210 → test slot = false) (cause : Cause)
    (list : List (Nat × Cause)) : listSlots test cause list = list := by
  have key : ∀ slots : List Nat, (∀ k ∈ slots, test k = false) →
      slots.foldl (fun l slot => if test slot then listSlot slot cause l else l) list = list := by
    intro slots
    induction slots with
    | nil => exact fun _ => rfl
    | cons a rest ih =>
      intro hall
      obtain ⟨ha, hall⟩ := List.forall_mem_cons.1 hall
      rw [List.foldl_cons, ha]
      exact ih hall
  exact key _ fun k hk => h k (List.mem_range.1 hk)

/-- The law of a render list: line slots in slot order, each once (R91). -/
def ListRises (list : List (Nat × Cause)) : Prop :=
  list.Pairwise (fun a b => a.1 < b.1) ∧ ∀ e ∈ list, e.1 < 210

theorem listRises_iff (list : List (Nat × Cause)) :
    ListRises list ↔ list.Pairwise (fun a b => a.1 < b.1) ∧ ∀ k, Lists list k → k < 210 :=
  and_congr_right fun _ => ⟨fun h _ ⟨_, hk⟩ => h _ hk, fun h e he => h e.1 ⟨e.2, he⟩⟩

theorem listSlot_rises {slot : Nat} {cause : Cause} {list : List (Nat × Cause)}
    (h : list.Pairwise fun a b => a.1 < b.1) : (listSlot slot cause list).Pairwise fun a b => a.1 < b.1 := by
  induction list with
  | nil => exact List.pairwise_singleton ..
  | cons e rest ih =>
    obtain ⟨he, hrest⟩ := List.pairwise_cons.1 h
    unfold listSlot
    split
    · next hlt =>
      refine List.pairwise_cons.2 ⟨fun k hk => ?_, h⟩
      rcases List.mem_cons.1 hk with rfl | hk
      · exact hlt
      · exact Nat.lt_trans hlt (he k hk)
    · split
      · exact List.pairwise_cons.2 ⟨he, hrest⟩
      · next h1 h2 =>
        refine List.pairwise_cons.2 ⟨fun k hk => ?_, ih hrest⟩
        rcases (lists_listSlot slot cause rest k.1).1 ⟨k.2, hk⟩ with hslot | ⟨c, hc⟩
        · omega
        · exact he (k.1, c) hc

theorem ListRises.listSlots {list : List (Nat × Cause)} (h : ListRises list) (test : Nat → Bool) (cause : Cause) :
    ListRises (listSlots test cause list) := by
  refine (listRises_iff _).2 ⟨?_, fun k hk => ?_⟩
  · have hrise := h.1
    unfold Machine.listSlots
    generalize List.range 210 = slots
    clear h
    induction slots generalizing list with
    | nil => exact hrise
    | cons a rest ih =>
      rw [List.foldl_cons]
      refine ih ?_
      split
      · exact listSlot_rises hrise
      · exact hrise
  · rcases (lists_listSlots ..).1 hk with hk | ⟨hk, _⟩
    · exact ((listRises_iff _).1 h).2 k hk
    · exact hk

end Sys2Proof.Machine
end

section
/-! PROOF. The mark unit: its law, the arrival of a request, and the ten requests at service done (R60 to R89). -/

namespace Sys2Proof.Machine

/-! ### The queue (R62, R63) -/

/-- The law of the mark unit. -/
structure MarkUnit.Sound (u : MarkUnit) : Prop where
  table : TableSound u.table
  depth : u.queue.length ≤ 4
  waiting : ∀ r ∈ u.queue, r.InRange
  serving : ∀ r, u.serving = some r → r.InRange
  idle : u.serving = none → u.queue = []

theorem State.marksSound_iff (s : State) : s.MarksSound ↔ s.marks.Sound :=
  ⟨fun ⟨h1, h2, h3, h4, h5, h6, h7, h8⟩ => ⟨⟨h1, h2, h3, h4⟩, h5, h6, h7, h8⟩,
    fun ⟨⟨h1, h2, h3, h4⟩, h5, h6, h7, h8⟩ => ⟨h1, h2, h3, h4, h5, h6, h7, h8⟩⟩

theorem MarkUnit.Sound.withTable {u : MarkUnit} (h : u.Sound) {table : List Mark} (ht : TableSound table) (answer : Answer)
    (scan : Option Scan) : { u with table := table, answer := answer, scan := scan }.Sound :=
  ⟨ht, h.depth, h.waiting, h.serving, h.idle⟩

theorem MarkUnit.takeNext_of_idle {u : MarkUnit} (h : u.serving = none) :
    u.takeNext = { u with serving := u.queue.head?, queue := u.queue.tail } := by
  unfold MarkUnit.takeNext
  obtain ⟨table, queue, serving, answer, scan⟩ := u
  subst h
  cases queue <;> rfl

theorem MarkUnit.takeNext_of_serving {u : MarkUnit} {r : MarkRequest} (h : u.serving = some r) : u.takeNext = u := by
  unfold MarkUnit.takeNext
  rw [h]

/-- A request that joins an IDLE unit is in service at once; otherwise it waits behind the others. -/
theorem MarkUnit.join_eq {u : MarkUnit} (hidle : u.serving = none → u.queue = []) (r : MarkRequest) :
    u.join r = if u.serving = none then { u with serving := some r } else { u with queue := u.queue ++ [r] } := by
  unfold MarkUnit.join
  split
  · next h =>
    rw [MarkUnit.takeNext_of_idle (by exact h)]
    simp [hidle h]
  · next h =>
    obtain ⟨q, hq⟩ := Option.ne_none_iff_exists'.1 h
    exact MarkUnit.takeNext_of_serving (r := q) hq

theorem MarkUnit.Sound.join {u : MarkUnit} (h : u.Sound) {r : MarkRequest} (hr : r.InRange) (hroom : u.queue.length < 4) :
    (u.join r).Sound := by
  rw [MarkUnit.join_eq h.idle]
  split
  · exact ⟨h.table, h.depth, h.waiting, fun q hq => by cases hq; exact hr, nofun⟩
  · next hserving =>
    refine ⟨h.table, by simpa using hroom, fun q hq => ?_, h.serving, fun hnone => absurd hnone hserving⟩
    rcases List.mem_append.1 hq with hq | hq
    · exact h.waiting q hq
    · rw [List.mem_singleton.1 hq]
      exact hr

theorem State.nextService_eq (s : State) : s.nextService =
    { s with marks := { s.marks with serving := s.marks.queue.head?, queue := s.marks.queue.tail } } := by
  unfold State.nextService
  rw [MarkUnit.takeNext_of_idle (by rfl)]

theorem MarkUnit.Sound.next {u : MarkUnit} (h : u.Sound) :
    { u with serving := u.queue.head?, queue := u.queue.tail }.Sound := by
  refine ⟨h.table, ?_, fun r hr => h.waiting r (List.mem_of_mem_tail hr), fun r hr => ?_, fun hnone => ?_⟩
  · have := h.depth
    simp only [List.length_tail]
    omega
  · exact h.waiting r (List.mem_of_head? hr)
  · rw [List.head?_eq_none_iff.1 hnone]
    rfl

theorem exec_serviceDone {s : State} {r : MarkRequest} (h : s.marks.serving = some r) :
    exec .serviceDone s = .next (r.serve s).nextService := by
  show Host.Outcome.next s.serviceEnds = _
  rw [State.serviceEnds, h]

/-! ### Requests in range -/

theorem legalRequest_inRange {q r : MarkRequest} (h : legalRequest q = some r)
    (htag : q.legal = true → q.InRange) : r.InRange := by
  unfold legalRequest at h
  split at h
  · next hlegal =>
    cases h
    exact htag hlegal
  · cases h

theorem fromBytes_lt (bs : List Byte) : fromBytes bs < 256 ^ bs.length := by
  have key : ∀ (bs : List Byte) (n : Nat), bs.foldl (fun n b => 256 * n + b.toNat) n < (n + 1) * 256 ^ bs.length := by
    intro bs
    induction bs with
    | nil => intro n; simp
    | cons b rest ih =>
      intro n
      have hb := b.isLt
      calc rest.foldl _ (256 * n + b.toNat) < (256 * n + b.toNat + 1) * 256 ^ rest.length := ih _
        _ ≤ ((n + 1) * 256) * 256 ^ rest.length := Nat.mul_le_mul_right _ (by omega)
        _ = (n + 1) * 256 ^ (b :: rest).length := by rw [List.length_cons, Nat.pow_succ]; ring
  have := key bs 0
  rwa [Nat.zero_add, Nat.one_mul] at this

theorem field_lt (bs : List Byte) (at_ len : Nat) : field bs at_ len < 256 ^ len :=
  (fromBytes_lt _).trans_le (Nat.pow_le_pow_right (by decide) (by simp))

theorem tagOf_inRange (bs : List Byte) (at_ : Nat) : tagInRange (tagOf (field bs at_ 1)) := by
  intro n hn
  unfold tagOf at hn
  have := field_lt bs at_ 1
  split at hn
  · cases hn
  · cases hn
    omega

theorem markAddOf_inRange {ps : List Byte} {r : MarkRequest} (h : markAddOf ps = some r) : r.InRange := by
  unfold markAddOf at h
  obtain ⟨style, _, h⟩ := Option.bind_eq_some_iff.1 h
  obtain ⟨shade, _, h⟩ := Option.bind_eq_some_iff.1 h
  exact legalRequest_inRange h fun hlegal => ⟨hlegal, tagOf_inRange ps _⟩

theorem markStyleOf_inRange {ps : List Byte} {r : MarkRequest} (h : markStyleOf ps = some r) : r.InRange := by
  unfold markStyleOf at h
  obtain ⟨style, _, h⟩ := Option.bind_eq_some_iff.1 h
  obtain ⟨shade, _, h⟩ := Option.bind_eq_some_iff.1 h
  obtain ⟨muted, _, h⟩ := Option.bind_eq_some_iff.1 h
  exact legalRequest_inRange h fun hlegal => ⟨hlegal, tagOf_inRange ps _⟩

theorem markAtOf_inRange {ps : List Byte} {r : MarkRequest} (h : markAtOf ps = some r) : r.InRange := by
  cases h
  rfl

/-! ### Arrival (R62, R63, R80) -/

theorem State.requestArrives_eq (cmd : Cmd) (r : Option MarkRequest) {p : State}
    (hidle : p.marks.serving = none → p.marks.queue = []) : State.requestArrives cmd r p =
    match r with
    | none => p.refuse cmd.code .badParam
    | some q =>
      if 4 ≤ p.marks.queue.length then p.refuse cmd.code .busy
      else if p.marks.serving = none then { p with marks := { p.marks with serving := some q } }
      else { p with marks := { p.marks with queue := p.marks.queue ++ [q] } } := by
  cases r with
  | none => rfl
  | some q =>
    simp only [State.requestArrives, MarkUnit.join_eq hidle, Config.markQueueDepth]
    split
    · rfl
    · split <;> rfl

end Sys2Proof.Machine
end

section
/-! PROOF. The ten requests of the mark unit: their arrival, and what they do at service done (R62 to R89). -/

namespace Sys2Proof.Machine

/-! ### Arrival -/

/-- Settles O37: each row hands its operands to `requestArrives`, which refuses or joins. -/
theorem requestsJoinTheQueue : Obligations.RequestsJoinTheQueue := by
  unfold Obligations.RequestsJoinTheQueue
  intro arrival s ps hidle p
  have arrives : ∀ (cmd : Cmd) (r : Option MarkRequest) (u : State), (u.marks.serving = none → u.marks.queue = []) →
      (State.requestArrives cmd r u).settleCut = arrival cmd.code r u := by
    intro cmd r u hu
    rw [State.requestArrives_eq cmd r hu]
    cases r with
    | none => rfl
    | some q =>
      simp only [arrival]
      split
      · rfl
      · split <;> rfl
  have atLast : ∀ (cmd : Cmd) (f : List Byte → Option MarkRequest), s.AtLastParam cmd ps →
      s.atLastParam cmd (fun ps => State.requestArrives cmd (f ps)) = arrival cmd.code (f ps) p := fun cmd f h => by
    rw [State.atLastParam_acts _ h]
    exact arrives cmd (f ps) p hidle
  have atByte : ∀ (cmd : Cmd) (r : MarkRequest), s.AtCommandByte cmd → s.begun.power.asleep = false →
      s.begun.marks = s.marks → s.atCommand cmd (State.requestArrives cmd (some r)) = arrival cmd.code (some r) s.begun :=
    fun cmd r h ha hm => by
      rw [State.atCommand_acts _ h (.inl ha)]
      exact arrives cmd (some r) s.begun (hm ▸ hidle)
  have hbegun : s.begun.marks = s.marks := by
    show (s.dropFront.endTaking.setTaking _).marks = _
    unfold State.endTaking
    split
    · rfl
    · rfl
    · rfl
    · next run _ => cases run <;> rfl
    · simp only [State.endGlyphStream]
      split <;> rfl
    · rfl
    · exact (State.endPortWork_eq _).1.marks
  exact ⟨fun h => congrArg _ (atLast .markAdd _ h), fun h => congrArg _ (atLast .markRange _ h),
    fun h => congrArg _ (atLast .markStyle _ h), fun h => congrArg _ (atLast .markRetire _ h),
    fun h => congrArg _ (atLast .markSweep _ h), fun h => congrArg _ (atLast .markGet _ h),
    fun h => congrArg _ (atLast .markAt _ h), fun h => congrArg _ (atLast .markScan _ h),
    fun h ha => congrArg _ (atByte .markClear _ h ha hbegun), fun h ha => congrArg _ (atByte .scanNext _ h ha hbegun)⟩

/-! ### Answers (R78) -/

/-- The events of a fill: ANSWER_READY, and ANSWER_LOST if the answer before it was unread. -/
def State.fillEvents (s : State) : Events :=
  (if s.marks.answer.read then s.raise .answerReady else (s.raise .answerLost).raise .answerReady).events

theorem State.fillAnswer_eq (kind : AnswerKind) (status : AnswerStatus) (total : Nat) (records : List Mark) (s : State) :
    s.fillAnswer kind status total records =
      { s with marks := { s.marks with answer := ⟨kind, status, total, records, false⟩ }, events := s.fillEvents } := by
  unfold State.fillAnswer State.fillEvents
  cases s.marks.answer.read <;> rfl

theorem State.fillChunk_eq (a b : Nat) (found : List Mark) (s : State) : s.fillChunk a b found =
    { s with
      marks := { s.marks with
        answer := ⟨.scan, if 16 < found.length then .more else .done, found.length, found.take 16, false⟩
        scan := if 16 < found.length then (found.take 16).getLast?.map fun m => ⟨a, b, m.start, m.id⟩ else none }
      events := s.fillEvents } := by
  unfold State.fillChunk
  simp only [State.fillAnswer_eq]
  split <;> rfl

theorem State.fillEvents_congr {s t : State} (hread : t.marks.answer.read = s.marks.answer.read)
    (hevents : t.events = s.events) : t.fillEvents = s.fillEvents := by
  unfold State.fillEvents
  rw [hread]
  cases s.marks.answer.read <;> simp [State.raise, hevents]

theorem State.fillEvents_closeScan (s : State) : s.closeScan.fillEvents = s.fillEvents :=
  State.fillEvents_congr rfl rfl

/-! ### What a request in service touches -/

theorem serve_touches (r : MarkRequest) (s : State) : ∃ refusal e m l, r.serve s =
    { s with
      link := { s.link with lastRefusal := refusal }, events := e, marks := m
      renderer := { s.renderer with list := l } } := by
  have same : ∀ (m : MarkUnit) (e : Events), ∃ refusal e' m' l, ({ s with marks := m, events := e } : State) =
      { s with link := { s.link with lastRefusal := refusal }, events := e', marks := m'
               renderer := { s.renderer with list := l } } := fun m e => ⟨_, e, m, _, rfl⟩
  match r with
  | .add id start stop style shade layer tag =>
    simp only [MarkRequest.serve, serveAdd]
    split
    · exact ⟨_, _, _, _, rfl⟩
    · split <;> exact ⟨_, _, _, _, rfl⟩
  | .range id start stop =>
    simp only [MarkRequest.serve, serveRange]
    split <;> exact ⟨_, _, _, _, rfl⟩
  | .restyle id style shade layer tag muted =>
    simp only [MarkRequest.serve, serveStyle]
    split <;> exact ⟨_, _, _, _, rfl⟩
  | .retire id =>
    simp only [MarkRequest.serve, serveRetire]
    split <;> exact ⟨_, _, _, _, rfl⟩
  | .sweep u v =>
    simp only [MarkRequest.serve, serveSweep, State.fillAnswer_eq]
    exact ⟨_, _, _, _, rfl⟩
  | .clear => exact ⟨_, _, _, _, rfl⟩
  | .get id =>
    simp only [MarkRequest.serve, serveGet, State.fillAnswer_eq]
    split <;> exact same _ _
  | .at x y =>
    simp only [MarkRequest.serve, serveAt, State.fillAnswer_eq]
    split <;> exact same _ _
  | .scan u v =>
    simp only [MarkRequest.serve, serveScan, State.fillChunk_eq]
    exact same _ _
  | .next =>
    simp only [MarkRequest.serve, serveNext]
    split
    · exact ⟨_, _, _, _, rfl⟩
    · simp only [State.fillChunk_eq]
      exact same _ _

/-- The queue and the request in service stand until the unit takes the next one. -/
theorem serve_queue (r : MarkRequest) (s : State) :
    (r.serve s).marks.queue = s.marks.queue ∧ (r.serve s).marks.serving = s.marks.serving := by
  match r with
  | .add id start stop style shade layer tag =>
    simp only [MarkRequest.serve, serveAdd]
    split
    · exact ⟨rfl, rfl⟩
    · split <;> exact ⟨rfl, rfl⟩
  | .range id start stop =>
    simp only [MarkRequest.serve, serveRange]
    split <;> exact ⟨rfl, rfl⟩
  | .restyle id style shade layer tag muted =>
    simp only [MarkRequest.serve, serveStyle]
    split <;> exact ⟨rfl, rfl⟩
  | .retire id =>
    simp only [MarkRequest.serve, serveRetire]
    split <;> exact ⟨rfl, rfl⟩
  | .sweep u v =>
    simp only [MarkRequest.serve, serveSweep, State.fillAnswer_eq]
    exact ⟨rfl, rfl⟩
  | .clear => exact ⟨rfl, rfl⟩
  | .get id =>
    simp only [MarkRequest.serve, serveGet, State.fillAnswer_eq]
    split <;> exact ⟨rfl, rfl⟩
  | .at x y =>
    simp only [MarkRequest.serve, serveAt, State.fillAnswer_eq]
    split <;> exact ⟨rfl, rfl⟩
  | .scan u v =>
    simp only [MarkRequest.serve, serveScan, State.fillChunk_eq, and_self]
  | .next =>
    simp only [MarkRequest.serve, serveNext]
    split
    · exact ⟨rfl, rfl⟩
    · simp only [State.fillChunk_eq, and_self]

/-! ### The four changes of one record -/

theorem serveAdd_eq {m : Mark} {s : State} (hnew : ∀ k ∈ s.marks.table, k.id ≠ m.id) (hroom : s.marks.table.length < 512) :
    serveAdd m s = (s.setTable (insertMark (m.onLines s.lines) s.marks.table)).dirty [(m.start, m.stop)] := by
  simp only [serveAdd, findMark_eq_none.2 hnew, Config.markLimit, Option.isSome_none, Bool.false_eq_true, if_false]
  rw [if_neg (by omega)]

/-- A change of the record of an id at service done: the record, and the table and the spans that it makes of it. -/
theorem serveRange_eq {id start stop : Nat} {s : State} {old : Mark} (h : findMark id s.marks.table = some old) :
    serveRange id start stop s =
      (s.setTable (insertMark (({ old with start := start, stop := stop } : Mark).onLines s.lines)
        (removeMark id s.marks.table))).dirty [(old.start, old.stop), (start, stop)] := by
  rw [serveRange, h]

theorem serveStyle_eq {id : Nat} {style : MarkStyle} {shade : Level} {layer : Nat} {tag : Option Nat} {muted : Bool}
    {s : State} {old : Mark} (h : findMark id s.marks.table = some old) : serveStyle id style shade layer tag muted s =
      (s.setTable (s.marks.table.map fun k => if k.id = id then
        ({ old with style := style, shade := shade, layer := layer, tag := tag, muted := muted } : Mark).onLines s.lines
        else k)).dirty [(old.start, old.stop)] := by
  rw [serveStyle, h]

theorem serveRetire_eq {id : Nat} {s : State} {old : Mark} (h : findMark id s.marks.table = some old) :
    serveRetire id s = (s.setTable (removeMark id s.marks.table)).dirty [(old.start, old.stop)] := by
  rw [serveRetire, h]

/-- The records with an id are the one that it finds. -/
theorem TableSound.map_found {table : List Mark} (h : TableSound table) {id : Nat} {old : Mark}
    (hold : findMark id table = some old) (f : Mark → Mark) :
    (table.map fun k => if k.id = id then f old else k) = table.map fun k => if k.id = id then f k else k := by
  refine List.map_congr_left fun k hk => ?_
  split
  · next hid =>
    rw [findMark_eq_some h.ids hk hid] at hold
    rw [Option.some.inj hold]
  · rfl

theorem Mark.InRange.moved {m : Mark} {id start stop : Nat} (h : m.InRange)
    (hr : (MarkRequest.range id start stop).InRange) (lines : LineTable) :
    (({ m with start := start, stop := stop } : Mark).onLines lines).InRange := by
  obtain ⟨h1, h2, _, _, h5, h6⟩ := h
  simp only [MarkRequest.InRange, MarkRequest.legal, Bool.and_eq_true, decide_eq_true_eq] at hr
  obtain ⟨⟨_, hlt⟩, hlen⟩ := hr
  exact ⟨h1, h2, hlt, hlen, h5, h6⟩

/-- A request in service keeps the law of the table. -/
theorem serve_tableSound {r : MarkRequest} {s : State} (h : TableSound s.marks.table) (hr : r.InRange) :
    TableSound (r.serve s).marks.table := by
  match r with
  | .add id start stop style shade layer tag =>
    simp only [MarkRequest.serve]
    obtain ⟨hlegal, htag⟩ := hr
    simp only [MarkRequest.legal, Bool.and_eq_true, decide_eq_true_eq] at hlegal
    obtain ⟨⟨⟨⟨h1, h2⟩, h3⟩, h4⟩, h5⟩ := hlegal
    unfold serveAdd
    split
    · exact h
    · next hnone =>
      split
      · exact h
      · next hroom =>
        refine h.insert ?_ (by simpa [Config.markLimit] using hroom) ⟨h1, h2, h3, h4, h5, htag⟩
        exact (findMark_eq_none (id := id)).1 (by simpa using hnone)
  | .range id start stop =>
    cases hfind : findMark id s.marks.table with
    | none => simpa only [MarkRequest.serve, serveRange, hfind, State.refuse_marks] using h
    | some old =>
      obtain ⟨hmem, hid⟩ := findMark_some hfind
      simp only [MarkRequest.serve, serveRange_eq hfind]
      refine (h.sublist List.filter_sublist).insert (fun k hk => ?_) ?_ ((h.fields old hmem).moved hr _)
      · exact hid.symm ▸ (mem_removeMark.1 hk).2
      · exact (removeMark_length_lt hmem hid).trans_le h.length
  | .restyle id style shade layer tag muted =>
    cases hfind : findMark id s.marks.table with
    | none => simpa only [MarkRequest.serve, serveStyle, hfind, State.refuse_marks] using h
    | some old =>
      obtain ⟨hlegal, htag⟩ := hr
      simp only [MarkRequest.legal, Bool.and_eq_true, decide_eq_true_eq] at hlegal
      simp only [MarkRequest.serve, serveStyle_eq hfind]
      have hmap := h.map_found hfind fun k =>
        ({ k with style := style, shade := shade, layer := layer, tag := tag, muted := muted } : Mark).onLines s.lines
      show TableSound (s.marks.table.map _)
      rw [hmap]
      refine h.map _ (fun m => ?_) fun m hm => ?_
      · split <;> exact ⟨rfl, rfl⟩
      · obtain ⟨h1, h2, h3, h4, h5, h6⟩ := h.fields m hm
        split
        · exact ⟨h1, h2, h3, h4, hlegal.2, htag⟩
        · exact ⟨h1, h2, h3, h4, h5, h6⟩
  | .retire id =>
    cases hfind : findMark id s.marks.table with
    | none => simpa only [MarkRequest.serve, serveRetire, hfind, State.refuse_marks] using h
    | some old =>
      simp only [MarkRequest.serve, serveRetire_eq hfind]
      exact h.sublist List.filter_sublist
  | .sweep u v =>
    simp only [MarkRequest.serve, serveSweep, State.fillAnswer_eq]
    exact h.sublist List.filter_sublist
  | .clear => exact .nil
  | .get id =>
    simp only [MarkRequest.serve, serveGet, State.fillAnswer_eq]
    split <;> exact h
  | .at x y =>
    simp only [MarkRequest.serve, serveAt, State.fillAnswer_eq]
    split <;> exact h
  | .scan u v =>
    simp only [MarkRequest.serve, serveScan, State.fillChunk_eq]
    exact h
  | .next =>
    simp only [MarkRequest.serve, serveNext]
    split
    · exact h
    · simp only [State.fillChunk_eq]
      exact h

/-- A request in service keeps the law of the mark unit. -/
theorem serve_sound {r : MarkRequest} {s : State} (h : s.marks.Sound) (hr : r.InRange) : (r.serve s).marks.Sound := by
  obtain ⟨hqueue, hserving⟩ := serve_queue r s
  refine ⟨serve_tableSound h.table hr, ?_, ?_, ?_, ?_⟩
  · exact hqueue ▸ h.depth
  · exact hqueue ▸ h.waiting
  · exact hserving ▸ h.serving
  · rw [hqueue, hserving]
    exact h.idle

/-- Service done keeps the law of the mark unit. -/
theorem nextService_sound {s : State} (h : s.marks.Sound) : s.nextService.marks.Sound := by
  rw [State.nextService_eq]
  exact h.next

/-! ### The six changes (R64 to R71) -/

/-- What a change of one record leaves when the unit has taken the next request. -/
theorem change_touches (s : State) (table : List Mark) (spans : List (Nat × Nat)) {final : List Mark}
    (hperm : table.Perm final) :
    ∃ t, Host.Outcome.next (ρ := Refusal) (φ := Fault) ((s.setTable table).dirty spans).nextService = .next t ∧
      t.marks.table.Perm final ∧ t.marks.answer = s.marks.answer ∧ t.marks.scan = s.marks.scan ∧
      t.marks.serving = s.marks.queue.head? ∧ t.marks.queue = s.marks.queue.tail ∧
      t.link = s.link ∧ t.events = s.events ∧ t.faces = s.faces ∧ t.setter = s.setter ∧ t.lines = s.lines ∧
      t.renderer.job = s.renderer.job ∧ t.image = s.image ∧ t.port = s.port ∧ t.sched = s.sched ∧ t.drive = s.drive ∧
      t.supply = s.supply ∧ t.power = s.power := by
  refine ⟨_, rfl, ?_⟩
  rw [State.nextService_eq]
  exact ⟨hperm, rfl, rfl, rfl, rfl, rfl, rfl, rfl, rfl, rfl, rfl, rfl, rfl, rfl, rfl, rfl, rfl⟩

/-- Settles O40: the equation of each change, and the permutation that an insertion in key order is. -/
theorem markChangesAtServiceDone : Obligations.MarkChangesAtServiceDone := by
  refine ⟨?_, fun s => ⟨fun a b hserve => ⟨_, exec_serviceDone hserve, ?_⟩, fun hserve => ⟨_, exec_serviceDone hserve, ?_⟩⟩⟩
  · intro s hs has onPage refused changed
    have hs := (State.marksSound_iff s).1 hs
    have absent : ∀ id, ¬ has id → findMark id s.marks.table = none := fun id hno =>
      findMark_eq_none.2 fun m hm hid => hno ⟨m, hm, hid⟩
    have present : ∀ id, has id → ∃ old, findMark id s.marks.table = some old := fun id ⟨m, hm, hid⟩ =>
      ⟨m, findMark_eq_some hs.table.ids hm hid⟩
    refine ⟨fun id start stop style shade layer tag hserve => ?_, fun id start stop hserve => ?_,
      fun id style shade layer tag muted hserve => ?_, fun id hserve => ?_⟩
    · refine ⟨fun hhas => ?_, fun hno hfull => ?_, fun hno hroom => ?_⟩
      · obtain ⟨old, hold⟩ := present id hhas
        simp only [refused, exec_serviceDone hserve, MarkRequest.serve, serveAdd, hold]
        rfl
      · simp only [refused, exec_serviceDone hserve, MarkRequest.serve, serveAdd, absent id hno, Config.markLimit, hfull]
        rfl
      · simp only [changed, exec_serviceDone hserve, MarkRequest.serve]
        rw [serveAdd_eq (fun k hk hid => hno ⟨k, hk, hid⟩) hroom]
        exact change_touches s _ _ (insertMark_perm ..)
    · refine ⟨fun hno => ?_, fun hhas => ?_⟩
      · simp only [refused, exec_serviceDone hserve, MarkRequest.serve, serveRange, absent id hno]
        rfl
      · obtain ⟨old, hold⟩ := present id hhas
        simp only [changed, exec_serviceDone hserve, MarkRequest.serve]
        rw [serveRange_eq hold]
        exact change_touches s _ _ ((insertMark_perm ..).trans (map_id_perm hs.table.ids (fun m =>
          ({ m with start := start, stop := stop } : Mark).onLines s.lines) hold).symm)
    · refine ⟨fun hno => ?_, fun hhas => ?_⟩
      · simp only [refused, exec_serviceDone hserve, MarkRequest.serve, serveStyle, absent id hno]
        rfl
      · obtain ⟨old, hold⟩ := present id hhas
        simp only [changed, exec_serviceDone hserve, MarkRequest.serve]
        rw [serveStyle_eq hold, hs.table.map_found hold fun k =>
          ({ k with style := style, shade := shade, layer := layer, tag := tag, muted := muted } : Mark).onLines s.lines]
        exact change_touches s _ _ (.refl _)
    · refine ⟨fun hno => ?_, fun hhas => ?_⟩
      · simp only [refused, exec_serviceDone hserve, MarkRequest.serve, serveRetire, absent id hno]
        rfl
      · obtain ⟨old, hold⟩ := present id hhas
        simp only [changed, exec_serviceDone hserve, MarkRequest.serve]
        rw [serveRetire_eq hold]
        exact change_touches s _ _ (.refl _)
  · intro gone
    simp only [MarkRequest.serve, serveSweep, State.fillAnswer_eq, State.nextService_eq]
    refine ⟨rfl, ?_, rfl, State.fillEvents_congr (s := s) rfl rfl, rfl, rfl, rfl, rfl, rfl, rfl, fun hgone => ?_⟩
    · have hempty : ∀ gone : List Mark, (if gone.isEmpty then AnswerStatus.none else .found) =
          if gone = [] then .none else .found := fun gone => by cases gone <;> rfl
      rw [hempty]
      rfl
    · have hgone : (s.marks.table.filter fun m => m.within a b) = [] := hgone
      simp only [State.dirty, hgone, List.map_nil, List.any_nil]
      rw [listSlots_eq_self fun _ _ => rfl]
      rfl
  · simp only [MarkRequest.serve, serveClear, State.nextService_eq]
    refine ⟨rfl, rfl, rfl, rfl, rfl, rfl, rfl, rfl, rfl, rfl, fun htable => ?_⟩
    simp only [State.dirty, htable, List.map_nil, List.any_nil]
    rw [listSlots_eq_self fun _ _ => rfl]
    rfl

/-! ### The lines a change touches (R72, R73) -/

theorem LineSlot.meets_iff (l : LineSlot) (a b : Nat) :
    l.meets a b = true ↔ l.record.isSet = true ∧ l.record.docStart < b ∧ a < l.record.docEnd := by
  simp [LineSlot.meets, rangesMeet]

/-- The slots that a change lists: those whose SET line meets one of its spans. -/
theorem listed_dirty (s : State) (spans : List (Nat × Nat)) :
    (∀ slot, (s.dirty spans).Listed slot ↔ s.Listed slot ∨ (slot < 210 ∧ (s.lines.slot slot).record.isSet = true ∧
      ∃ a b, (a, b) ∈ spans ∧ (s.lines.slot slot).record.docStart < b ∧ a < (s.lines.slot slot).record.docEnd)) ∧
    ∀ slot, (slot, Cause.page) ∈ (s.dirty spans).renderer.list ↔ (slot, Cause.page) ∈ s.renderer.list := by
  have hlist : (s.dirty spans).renderer.list =
      listSlots (fun slot => spans.any fun r => (s.lines.slot slot).meets r.1 r.2) .mark s.renderer.list := rfl
  refine ⟨fun slot => ?_, fun slot => by rw [hlist, page_mem_listSlots_mark]⟩
  have hslot := lists_listSlots (fun slot => spans.any fun r => (s.lines.slot slot).meets r.1 r.2) .mark s.renderer.list slot
  rw [← hlist] at hslot
  refine hslot.trans (or_congr_right (and_congr_right fun _ => ?_))
  simp only [List.any_eq_true, LineSlot.meets_iff, Prod.exists]
  constructor
  · rintro ⟨a, b, hmem, hset, h⟩
    exact ⟨hset, a, b, hmem, h⟩
  · rintro ⟨hset, a, b, hmem, h⟩
    exact ⟨a, b, hmem, hset, h⟩

/-- Settles O41: every change is a `dirty` of the spans it names. -/
theorem changesListTheLinesTheyTouch : Obligations.ChangesListTheLinesTheyTouch := by
  intro s t r hs hserve ht has touched
  have hs := (State.marksSound_iff s).1 hs
  rw [exec_serviceDone hserve, State.nextService_eq] at ht
  have hrend : t.renderer = (r.serve s).renderer := by
    cases ht
    rfl
  have key : ∀ (table : List Mark) (spans : List (Nat × Nat)) (inSpan : Nat → Nat → Prop),
      (r.serve s).renderer = ((s.setTable table).dirty spans).renderer → (∀ a b, (a, b) ∈ spans ↔ inSpan a b) →
      touched inSpan := by
    intro table spans inSpan hserve hspan
    obtain ⟨hlist, hpage⟩ := listed_dirty (s.setTable table) spans
    simp only [touched, State.Listed, hrend, hserve, ← hspan]
    exact ⟨hlist, hpage⟩
  have found : ∀ id old, findMark id s.marks.table = some old → ∀ a b,
      ((a, b) ∈ [(old.start, old.stop)] ↔ ∃ m ∈ s.marks.table, m.id = id ∧ a = m.start ∧ b = m.stop) := by
    intro id old hold a b
    obtain ⟨hmem, hid⟩ := findMark_some hold
    simp only [List.mem_singleton, Prod.mk.injEq]
    refine ⟨fun ⟨ha, hb⟩ => ⟨old, hmem, hid, ha, hb⟩, fun ⟨m, hm, hmid, ha, hb⟩ => ?_⟩
    rw [findMark_eq_some hs.table.ids hm hmid] at hold
    cases hold
    exact ⟨ha, hb⟩
  refine ⟨?_, ?_, ?_, ?_, ?_, ?_⟩
  · rintro id start stop style shade layer tag rfl hno hroom
    refine key _ _ _ (congrArg _ (serveAdd_eq (fun k hk hid => hno ⟨k, hk, hid⟩) hroom)) fun a b => ?_
    simp
  · rintro id start stop rfl ⟨m, hm, hid⟩
    have hold := findMark_eq_some hs.table.ids hm hid
    refine key _ _ _ (congrArg _ (serveRange_eq hold)) fun a b => ?_
    rw [List.mem_cons, or_comm, List.mem_singleton, Prod.mk.injEq, ← found id m hold, List.mem_singleton]
  · rintro id style shade layer tag muted rfl ⟨m, hm, hid⟩
    have hold := findMark_eq_some hs.table.ids hm hid
    exact key _ _ _ (congrArg _ (serveStyle_eq hold)) (found id m hold)
  · rintro id rfl ⟨m, hm, hid⟩
    have hold := findMark_eq_some hs.table.ids hm hid
    exact key _ _ _ (congrArg _ (serveRetire_eq hold)) (found id m hold)
  · rintro u v rfl
    refine key _ ((s.marks.table.filter fun m => m.within u v).map fun m => (m.start, m.stop)) _
      (by simp only [MarkRequest.serve, serveSweep, State.fillAnswer_eq]; rfl) fun a b => ?_
    simp only [List.mem_map, List.mem_filter, Mark.within, Bool.and_eq_true, decide_eq_true_eq, Prod.mk.injEq]
    constructor
    · rintro ⟨m, ⟨hm, h1, h2⟩, rfl, rfl⟩
      exact ⟨m, hm, h1, h2, rfl, rfl⟩
    · rintro ⟨m, hm, h1, h2, rfl, rfl⟩
      exact ⟨m, ⟨hm, h1, h2⟩, rfl, rfl⟩
  · rintro rfl
    refine key _ _ _ rfl fun a b => ?_
    simp only [List.mem_map, Prod.mk.injEq]
    constructor
    · rintro ⟨m, hm, rfl, rfl⟩
      exact ⟨m, hm, rfl, rfl⟩
    · rintro ⟨m, hm, rfl, rfl⟩
      exact ⟨m, hm, rfl, rfl⟩

/-! ### The four queries (R78 to R87) -/

theorem getLast?_take_16 {α : Type} {found : List α} {m : α} (hm : found[15]? = some m) :
    (found.take 16).getLast? = some m := by
  obtain ⟨hlen, _⟩ := List.getElem?_eq_some_iff.1 hm
  rw [List.getLast?_eq_getElem?, List.length_take, show min 16 found.length - 1 = 15 by omega,
    List.getElem?_take_of_lt (by decide), hm]

/-- Settles O42: each query is a fill of the answer slot, and the unit takes the next request. -/
theorem queriesFillTheAnswerSlot : Obligations.QueriesFillTheAnswerSlot := by
  intro s fill chunk
  have scans : ∀ (a b : Nat) (found : List Mark) (r : MarkRequest), s.marks.serving = some r →
      r.serve s = s.fillChunk a b found → chunk a b found := by
    intro a b found r hserve hr
    simp only [chunk, fill, exec_serviceDone hserve, hr, State.fillChunk_eq]
    refine ⟨fun hle => ?_, fun m hlt hm => ?_⟩
    · rw [if_neg (by omega), if_neg (by omega), List.take_of_length_le hle]
      rfl
    · rw [if_pos hlt, if_pos hlt, getLast?_take_16 hm]
      rfl
  refine ⟨fun id hserve => ⟨fun m hm => ⟨(findMark_some hm).2, ?_⟩, fun hno => ?_⟩,
    fun x y hserve => ⟨fun hempty => ?_, fun hne => ?_⟩, fun a b hserve => scans a b _ _ hserve rfl, fun hserve hscan => ?_,
    fun c hserve hscan => ?_⟩
  · simp only [fill, exec_serviceDone hserve, MarkRequest.serve, serveGet, hm, State.fillAnswer_eq, State.fillEvents_closeScan]
    rfl
  · simp only [fill, exec_serviceDone hserve, MarkRequest.serve, serveGet, findMark_eq_none.2 hno, State.fillAnswer_eq, State.fillEvents_closeScan]
    rfl
  · simp only [fill, exec_serviceDone hserve, MarkRequest.serve, serveAt, hempty, State.fillAnswer_eq, State.fillEvents_closeScan, List.isEmpty_nil, if_true]
    rfl
  · simp only [fill, exec_serviceDone hserve, MarkRequest.serve, serveAt, List.isEmpty_iff, hne, State.fillAnswer_eq, State.fillEvents_closeScan, if_false]
    rfl
  · simp only [exec_serviceDone hserve, MarkRequest.serve, serveNext, hscan]
    rfl
  · refine scans c.s c.e _ _ hserve ?_
    simp only [MarkRequest.serve, serveNext, hscan, meeting, List.filter_filter]
    congr 2
    funext m
    rw [Bool.and_comm]
    rfl

end Sys2Proof.Machine
end

section
/-! PROOF. Fields of byte strings: what is written most significant byte first is read back, and the record formats and the
operand forms that consist of such fields (00_scope.md, section 6; R62, R80; 11.7). -/

namespace Sys2Proof.Machine

/-! ### Fields -/

@[simp] theorem byteOf_toNat (n : Nat) : (byteOf n).toNat = n % 256 := BitVec.toNat_ofNat ..

theorem fromBytes_single (b : Byte) : fromBytes [b] = b.toNat := by simp [fromBytes]

theorem fromBytes_twoBytes {n : Nat} (h : n < 65536) : fromBytes (twoBytes n) = n := by
  simp only [fromBytes, twoBytes, List.foldl_cons, List.foldl_nil, byteOf_toNat]
  omega

theorem fromBytes_threeBytes {n : Nat} (h : n < 16777216) : fromBytes (threeBytes n) = n := by
  simp only [fromBytes, threeBytes, List.foldl_cons, List.foldl_nil, byteOf_toNat]
  omega

theorem fromBytes_fourBytes {n : Nat} (h : n < 2 ^ 32) : fromBytes (fourBytes n) = n := by
  simp only [fromBytes, fourBytes, List.foldl_cons, List.foldl_nil, byteOf_toNat]
  omega

/-- A field is the number that stands at its place. -/
theorem field_eq {bs part : List Byte} {at_ len : Nat} (h : (bs.drop at_).take len = part) :
    field bs at_ len = fromBytes part := by rw [field, h]

theorem field_byte {bs : List Byte} {at_ : Nat} {b : Byte} (h : (bs.drop at_).take 1 = [b]) : field bs at_ 1 = b.toNat :=
  (field_eq h).trans (fromBytes_single b)

theorem field_two {bs : List Byte} {at_ n : Nat} (h : (bs.drop at_).take 2 = twoBytes n) (hn : n < 65536) :
    field bs at_ 2 = n :=
  (field_eq h).trans (fromBytes_twoBytes hn)

theorem field_three {bs : List Byte} {at_ n : Nat} (h : (bs.drop at_).take 3 = threeBytes n) (hn : n < 16777216) :
    field bs at_ 3 = n :=
  (field_eq h).trans (fromBytes_threeBytes hn)

theorem field_four {bs : List Byte} {at_ n : Nat} (h : (bs.drop at_).take 4 = fourBytes n) (hn : n < 2 ^ 32) :
    field bs at_ 4 = n :=
  (field_eq h).trans (fromBytes_fourBytes hn)

/-- A field behind a leading part. -/
theorem field_append_right (a b : List Byte) (i len : Nat) : field (a ++ b) (a.length + i) len = field b i len := by
  rw [field, List.drop_append, List.drop_of_length_le (Nat.le_add_right ..), Nat.add_sub_cancel_left, List.nil_append,
    field]

/-- A field within a leading part. -/
theorem field_append_left (a b : List Byte) {i len : Nat} (h : i + len ≤ a.length) :
    field (a ++ b) i len = field a i len := by
  rw [field, field, List.drop_append_of_le_length (by omega), List.take_append_of_le_length (by simp; omega)]

/-- A field of a record that stands among others of one length. -/
theorem field_flatMap {α : Type} {f : α → List Byte} {n : Nat} (hlen : ∀ q, (f q).length = n) {l : List α} {k : Nat}
    {q : α} (hq : l[k]? = some q) {i len : Nat} (h : i + len ≤ n) :
    field (l.flatMap f) (n * k + i) len = field (f q) i len := by
  induction l generalizing k with
  | nil => simp at hq
  | cons a rest ih =>
    rw [List.flatMap_cons]
    cases k with
    | zero =>
      obtain rfl : a = q := by simpa using hq
      rw [Nat.mul_zero, Nat.zero_add, field_append_left]
      rw [hlen]
      exact h
    | succ k =>
      have hq : rest[k]? = some q := by simpa using hq
      rw [show n * (k + 1) + i = (f a).length + (n * k + i) by rw [hlen]; ring, field_append_right]
      exact ih hq

theorem length_flatMap_of {α : Type} {f : α → List Byte} {n : Nat} (hlen : ∀ q, (f q).length = n) (l : List α) :
    (l.flatMap f).length = n * l.length := by
  induction l with
  | nil => rfl
  | cons a rest ih => rw [List.flatMap_cons, List.length_append, hlen, ih, List.length_cons, Nat.mul_succ, Nat.add_comm]

/-! ### Codes -/

theorem styleOf_code (style : MarkStyle) : styleOf style.code.toNat = some style := by cases style <;> rfl

theorem styleOf_of_gt {n : Nat} (h : 3 < n) : styleOf n = none := by
  rw [styleOf, if_neg (by omega), if_neg (by omega), if_neg (by omega), if_neg (by omega)]

theorem levelOf_val (v : Level) : levelOf v.val = some v := by rw [levelOf, dif_pos v.isLt]

theorem levelOf_of_gt {n : Nat} (h : 15 < n) : levelOf n = none := by rw [levelOf, dif_neg (by omega)]

theorem flagOf_boolByte (b : Bool) : flagOf (boolByte b).toNat = some b := by cases b <;> rfl

theorem flagOf_of_gt {n : Nat} (h : 1 < n) : flagOf n = none := by rw [flagOf, if_neg (by omega), if_neg (by omega)]

theorem tagOf_getD {tag : Option Nat} (h : tagInRange tag) : tagOf (tag.getD 0 % 256) = tag := by
  cases tag with
  | none => rfl
  | some n =>
    obtain ⟨h1, h2⟩ := h n rfl
    rw [Option.getD_some, tagOf, Nat.mod_eq_of_lt (by omega), if_neg (by omega)]

theorem legalRequest_of {r : MarkRequest} (h : r.legal = true) : legalRequest r = some r := if_pos h

theorem legalRequest_none {r : MarkRequest} (h : r.legal = false) : legalRequest r = none := by
  rw [legalRequest, h]
  rfl

/-! ### Mark requests (R62, R80) -/

theorem legal_add_iff (id start stop : Nat) (style : MarkStyle) (shade : Level) (layer : Nat) (tag : Option Nat) :
    (MarkRequest.add id start stop style shade layer tag).legal = true ↔
      1 ≤ id ∧ id ≤ 65535 ∧ start < stop ∧ stop - start ≤ 65535 ∧ layer ≤ 3 := by
  simp only [MarkRequest.legal, Bool.and_eq_true, decide_eq_true_eq, and_assoc]

theorem legal_range_iff (id start stop : Nat) : (MarkRequest.range id start stop).legal = true ↔
    1 ≤ id ∧ id ≤ 65535 ∧ start < stop ∧ stop - start ≤ 65535 := by
  simp only [MarkRequest.legal, Bool.and_eq_true, decide_eq_true_eq, and_assoc]

theorem legal_restyle_iff (id : Nat) (style : MarkStyle) (shade : Level) (layer : Nat) (tag : Option Nat) (muted : Bool) :
    (MarkRequest.restyle id style shade layer tag muted).legal = true ↔ 1 ≤ id ∧ id ≤ 65535 ∧ layer ≤ 3 := by
  simp only [MarkRequest.legal, Bool.and_eq_true, decide_eq_true_eq, and_assoc]

/-- MARK ADD read back, from its style and shade and a request of the rest. -/
theorem markAddOf_eq {id a b : Nat} (style shade layer tag : Byte) (hid : id < 65536) (ha : a < 2 ^ 32) (hb : b < 2 ^ 32) :
    markAddOf (twoBytes id ++ fourBytes a ++ fourBytes b ++ [style, shade, layer, tag]) =
      (styleOf style.toNat).bind fun st => (levelOf shade.toNat).bind fun sh =>
        legalRequest (.add id a b st sh layer.toNat (tagOf tag.toNat)) := by
  unfold markAddOf
  rw [field_byte (b := style) rfl, field_byte (b := shade) rfl, field_byte (b := layer) rfl, field_byte (b := tag) rfl,
    field_two (n := id) rfl hid, field_four (n := a) rfl ha, field_four (n := b) rfl hb]
  rfl

theorem markRangeOf_eq {id a b : Nat} (hid : id < 65536) (ha : a < 2 ^ 32) (hb : b < 2 ^ 32) :
    markRangeOf (twoBytes id ++ fourBytes a ++ fourBytes b) = legalRequest (.range id a b) := by
  unfold markRangeOf
  rw [field_two (n := id) rfl hid, field_four (n := a) rfl ha, field_four (n := b) rfl hb]

theorem markStyleOf_eq {id : Nat} (style shade layer tag muted : Byte) (hid : id < 65536) :
    markStyleOf (twoBytes id ++ [style, shade, layer, tag, muted]) =
      (styleOf style.toNat).bind fun st => (levelOf shade.toNat).bind fun sh => (flagOf muted.toNat).bind fun mu =>
        legalRequest (.restyle id st sh layer.toNat (tagOf tag.toNat) mu) := by
  unfold markStyleOf
  rw [field_byte (b := style) rfl, field_byte (b := shade) rfl, field_byte (b := muted) rfl, field_byte (b := layer) rfl,
    field_byte (b := tag) rfl, field_two (n := id) rfl hid]
  rfl

/-- Settles O38: each operand form is its fields, each field read back. -/
theorem requestParametersRoundTrip : Obligations.RequestParametersRoundTrip := by
  have shade : ∀ v : Level, (byteOf v.val).toNat = v.val := fun v => by
    have := v.isLt
    rw [byteOf_toNat, Nat.mod_eq_of_lt (by omega)]
  refine ⟨?_, ?_, ?_, ?_, ⟨rfl, rfl⟩, ?_, ?_, ?_, ?_, ?_⟩
  · rintro id start stop style v layer tag hstop ⟨hlegal, htag⟩
    obtain ⟨h1, h2, h3, h4, h5⟩ := (legal_add_iff ..).1 hlegal
    rw [markAddOf_eq _ _ _ _ (by omega) (by omega) hstop, styleOf_code, shade, levelOf_val, byteOf_toNat, byteOf_toNat,
      tagOf_getD htag, Nat.mod_eq_of_lt (by omega)]
    exact legalRequest_of hlegal
  · intro id start stop hstop hlegal
    obtain ⟨h1, h2, h3, h4⟩ := (legal_range_iff ..).1 hlegal
    rw [markRangeOf_eq (by omega) (by omega) hstop]
    exact legalRequest_of hlegal
  · rintro id style v layer tag muted ⟨hlegal, htag⟩
    obtain ⟨h1, h2, h3⟩ := (legal_restyle_iff ..).1 hlegal
    rw [markStyleOf_eq _ _ _ _ _ (by omega), styleOf_code, shade, levelOf_val, flagOf_boolByte, byteOf_toNat, byteOf_toNat,
      tagOf_getD htag, Nat.mod_eq_of_lt (by omega)]
    exact legalRequest_of hlegal
  · intro id h1 h2
    have hid : field (twoBytes id) 0 2 = id := field_two (n := id) rfl (by omega)
    rw [markRetireOf, markGetOf, hid]
    exact ⟨legalRequest_of (by simp [MarkRequest.legal, h1, h2]), legalRequest_of (by simp [MarkRequest.legal, h1, h2])⟩
  · intro a b ha hb
    have hfa : field (fourBytes a ++ fourBytes b) 0 4 = a := field_four (n := a) rfl ha
    have hfb : field (fourBytes a ++ fourBytes b) 4 4 = b := field_four (n := b) rfl hb
    rw [markSweepOf, markScanOf, hfa, hfb]
    by_cases hlt : a < b
    · simp [legalRequest, MarkRequest.legal, hlt]
    · simp [legalRequest, MarkRequest.legal, hlt]
  · intro x y hx hy
    rw [markAtOf, field_two (n := x) rfl hx, field_two (n := y) rfl hy]
    rfl
  · intro id a b hid ha hb hbad
    rw [markRangeOf_eq hid ha hb]
    refine legalRequest_none (Bool.eq_false_iff.2 fun hlegal => ?_)
    have := (legal_range_iff ..).1 hlegal
    omega
  · intro id a b style v layer tag hid ha hb hbad
    rw [markAddOf_eq _ _ _ _ hid ha hb]
    cases hst : styleOf style.toNat with
    | none => rfl
    | some st =>
      cases hsh : levelOf v.toNat with
      | none => rfl
      | some sh =>
        refine legalRequest_none (Bool.eq_false_iff.2 fun hlegal => ?_)
        have := (legal_add_iff ..).1 hlegal
        have : ¬ 3 < style.toNat := fun h => by rw [styleOf_of_gt h] at hst; cases hst
        have : ¬ 15 < v.toNat := fun h => by rw [levelOf_of_gt h] at hsh; cases hsh
        omega
  · intro id style v layer tag muted hid hbad
    rw [markStyleOf_eq _ _ _ _ _ hid]
    cases hst : styleOf style.toNat with
    | none => rfl
    | some st =>
      cases hsh : levelOf v.toNat with
      | none => rfl
      | some sh =>
        cases hmu : flagOf muted.toNat with
        | none => rfl
        | some mu =>
          refine legalRequest_none (Bool.eq_false_iff.2 fun hlegal => ?_)
          have := (legal_restyle_iff ..).1 hlegal
          have : ¬ 3 < style.toNat := fun h => by rw [styleOf_of_gt h] at hst; cases hst
          have : ¬ 15 < v.toNat := fun h => by rw [levelOf_of_gt h] at hsh; cases hsh
          have : ¬ 1 < muted.toNat := fun h => by rw [flagOf_of_gt h] at hmu; cases hmu
          omega

/-! ### Records (11.7) -/

theorem Placement.bytes_length (p : Placement) : p.bytes.length = 13 := rfl

theorem Mark.bytes_length (m : Mark) : m.bytes.length = 15 := rfl

theorem LineFlags.testBit_code (f : LineFlags) : ∀ i, i < 8 →
    f.code.toNat.testBit i = [f.loose, f.split, f.hyphenated, f.paraEnd, f.missing].getD i false := by
  obtain ⟨a, b, c, d, e⟩ := f
  revert a b c d e
  decide

theorem markFlags_testBit (muted onPage : Bool) : ∀ i, i < 8 →
    (byteOf (muted.toNat + 2 * onPage.toNat)).toNat.testBit i = [muted, onPage].getD i false := by
  revert muted onPage
  decide

/-- The place of a line slot within its area. -/
theorem slotArea_rest (slot : Nat) (h : slot < 210) : slot - (slotArea slot).firstSlot < 256 ∧
    slot - (slotArea slot).firstSlot = (if slot = 0 then 0 else if slot ≤ 208 then slot - 1 else 0) ∧
    (slotArea slot).code.toNat = (if slot = 0 then 0 else if slot ≤ 208 then 1 else 2) := by
  unfold slotArea
  split
  · next h0 => exact ⟨by simp [h0, Area.firstSlot], by simp [h0], rfl⟩
  · split
    · exact ⟨by simp only [Area.firstSlot]; omega, rfl, rfl⟩
    · exact ⟨by simp only [Area.firstSlot]; omega, by simp only [Area.firstSlot]; omega, rfl⟩

/-- The 20 bytes before a line record's placements (11.7). -/
def LineSlot.header (slot : Nat) (l : LineSlot) : List Byte :=
  let r := l.record
  [(slotArea slot).code, byteOf (slot - (slotArea slot).firstSlot), boolByte r.isSet] ++
  fourBytes r.docStart ++ fourBytes r.docEnd ++ [r.align.code, byteOf r.indent, r.flags.code] ++
  [boolByte (l.signature.isSome && l.length.isSome)] ++ twoBytes ((l.signature.getD 0).toNat) ++
  twoBytes (l.length.getD 0) ++ [byteOf r.placements.length]

theorem LineSlot.bytes_eq (slot : Nat) (l : LineSlot) :
    l.bytes slot = l.header slot ++ l.record.placements.flatMap Placement.bytes := rfl

/-- The 5 bytes before an answer's mark records (11.7). -/
def Answer.header (a : Answer) : List Byte :=
  [a.kind.code, a.status.code] ++ twoBytes a.total ++ [byteOf a.records.length]

theorem Answer.bytes_eq (a : Answer) : a.bytes = a.header ++ a.records.flatMap Mark.bytes := rfl

theorem boolByte_toNat (b : Bool) : (boolByte b).toNat = if b = true then 1 else 0 := by cases b <;> rfl

/-- Settles O30: a field of a record's head is read within the head, one of the k-th placement or mark within its bytes. -/
theorem recordsAreLaidOut : Obligations.RecordsAreLaidOut := by
  refine ⟨?_, ?_⟩
  · intro slot l hslot r hstart hend hindent hcount hlength hplaces bs
    have head : ∀ i len, i + len ≤ 20 → field bs i len = field (l.header slot) i len := fun i len hi =>
      field_append_left (l.header slot) _ hi
    have place : ∀ k p, r.placements[k]? = some p → ∀ i len, i + len ≤ 13 →
        field bs (20 + 13 * k + i) len = field p.bytes i len := fun k p hp i len hi => by
      have h1 := field_append_right (l.header slot) (r.placements.flatMap Placement.bytes) (13 * k + i) len
      rw [field_flatMap Placement.bytes_length hp hi, ← Nat.add_assoc] at h1
      exact h1
    obtain ⟨harea, hplace, hcode⟩ := slotArea_rest slot hslot
    have hlen : l.length.getD 0 < 65536 := by
      cases h : l.length with
      | none => decide
      | some n => exact hlength n h
    refine ⟨?_, ?_, ?_, ?_, ?_, ?_, ?_, ?_, ?_, ?_, ?_, ?_, ?_, fun k p hp => ?_⟩
    · show (l.header slot ++ _).length = _
      rw [List.length_append, length_flatMap_of Placement.bytes_length]
      rfl
    · rw [head 0 1 (by omega), field_byte (b := (slotArea slot).code) rfl, hcode]
    · rw [head 1 1 (by omega), field_byte (b := byteOf (slot - (slotArea slot).firstSlot)) rfl, byteOf_toNat,
        Nat.mod_eq_of_lt harea, hplace]
    · rw [head 2 1 (by omega), field_byte (b := boolByte r.isSet) rfl, boolByte_toNat]
    · rw [head 3 4 (by omega), field_four (n := r.docStart) rfl hstart]
    · rw [head 7 4 (by omega), field_four (n := r.docEnd) rfl hend]
    · rw [head 11 1 (by omega), field_byte (b := r.align.code) rfl]
      cases r.align <;> rfl
    · rw [head 12 1 (by omega), field_byte (b := byteOf r.indent) rfl, byteOf_toNat, Nat.mod_eq_of_lt (by omega)]
    · rw [head 13 1 (by omega), field_byte (b := r.flags.code) rfl]
      exact r.flags.testBit_code
    · rw [head 14 1 (by omega), field_byte (b := boolByte (l.signature.isSome && l.length.isSome)) rfl, boolByte_toNat]
      simp only [Bool.and_eq_true]
    · rw [head 15 2 (by omega), field_two (n := (l.signature.getD 0).toNat) rfl (l.signature.getD 0).isLt]
    · rw [head 17 2 (by omega), field_two (n := l.length.getD 0) rfl hlen]
    · rw [head 19 1 (by omega), field_byte (b := byteOf r.placements.length) rfl, byteOf_toNat,
        Nat.mod_eq_of_lt (by omega)]
    · obtain ⟨hface, hpcode, hoffset, hpen, hwidth⟩ := hplaces p (List.mem_of_getElem? hp)
      have at_ := place k p hp
      refine ⟨?_, ?_, ?_, ?_, ?_, ?_⟩
      · rw [show 20 + 13 * k = 20 + 13 * k + 0 by omega, at_ 0 1 (by omega), field_byte (b := p.kind.code) rfl]
        cases p.kind <;> rfl
      · rw [show 21 + 13 * k = 20 + 13 * k + 1 by omega, at_ 1 1 (by omega), field_byte (b := byteOf p.face) rfl,
          byteOf_toNat, Nat.mod_eq_of_lt (by omega)]
      · rw [show 22 + 13 * k = 20 + 13 * k + 2 by omega, at_ 2 3 (by omega), field_three (n := p.code) rfl (by omega)]
      · rw [show 25 + 13 * k = 20 + 13 * k + 5 by omega, at_ 5 4 (by omega), field_four (n := p.offset) rfl hoffset]
      · rw [show 29 + 13 * k = 20 + 13 * k + 9 by omega, at_ 9 2 (by omega), field_two (n := p.pen) rfl hpen]
      · rw [show 31 + 13 * k = 20 + 13 * k + 11 by omega, at_ 11 2 (by omega), field_two (n := p.width) rfl hwidth]
  · intro a htotal hcount hmarks bs
    have head : ∀ i len, i + len ≤ 5 → field bs i len = field a.header i len := fun i len hi =>
      field_append_left a.header _ hi
    refine ⟨?_, ?_, ?_, ?_, ?_, fun k m hm => ?_⟩
    · show (a.header ++ _).length = _
      rw [List.length_append, length_flatMap_of Mark.bytes_length]
      rfl
    · rw [head 0 1 (by omega), field_byte (b := a.kind.code) rfl]
      cases a.kind <;> rfl
    · rw [head 1 1 (by omega), field_byte (b := a.status.code) rfl]
      cases a.status <;> rfl
    · rw [head 2 2 (by omega), field_two (n := a.total) rfl htotal]
    · rw [head 4 1 (by omega), field_byte (b := byteOf a.records.length) rfl, byteOf_toNat, Nat.mod_eq_of_lt (by omega)]
    · have at_ : ∀ i len, i + len ≤ 15 → field bs (5 + 15 * k + i) len = field m.bytes i len := fun i len hi => by
        have h1 := field_append_right a.header (a.records.flatMap Mark.bytes) (15 * k + i) len
        rw [field_flatMap Mark.bytes_length hm hi, ← Nat.add_assoc] at h1
        exact h1
      obtain ⟨⟨_, hid, hlt, hspan, hlayer, htag⟩, hstop⟩ := hmarks m (List.mem_of_getElem? hm)
      have hshade := m.shade.isLt
      refine ⟨?_, ?_, ?_, ?_, ?_, ?_, ?_, ?_⟩
      · rw [show 5 + 15 * k = 5 + 15 * k + 0 by omega, at_ 0 2 (by omega), field_two (n := m.id) rfl (by omega)]
      · rw [show 7 + 15 * k = 5 + 15 * k + 2 by omega, at_ 2 4 (by omega), field_four (n := m.start) rfl (by omega)]
      · rw [show 11 + 15 * k = 5 + 15 * k + 6 by omega, at_ 6 4 (by omega), field_four (n := m.stop) rfl hstop]
      · rw [show 15 + 15 * k = 5 + 15 * k + 10 by omega, at_ 10 1 (by omega), field_byte (b := m.style.code) rfl]
        cases m.style <;> rfl
      · rw [show 16 + 15 * k = 5 + 15 * k + 11 by omega, at_ 11 1 (by omega), field_byte (b := byteOf m.shade.val) rfl,
          byteOf_toNat, Nat.mod_eq_of_lt (by omega)]
      · rw [show 17 + 15 * k = 5 + 15 * k + 12 by omega, at_ 12 1 (by omega), field_byte (b := byteOf m.layer) rfl,
          byteOf_toNat, Nat.mod_eq_of_lt (by omega)]
      · rw [show 18 + 15 * k = 5 + 15 * k + 13 by omega, at_ 13 1 (by omega), field_byte (b := byteOf (m.tag.getD 0)) rfl,
          byteOf_toNat]
        refine Nat.mod_eq_of_lt ?_
        cases h : m.tag with
        | none => decide
        | some n => exact Nat.lt_succ_of_le (htag n h).2
      · rw [show 19 + 15 * k = 5 + 15 * k + 14 by omega, at_ 14 1 (by omega),
          field_byte (b := byteOf (m.muted.toNat + 2 * m.onPage.toNat)) rfl]
        exact markFlags_testBit m.muted m.onPage

end Sys2Proof.Machine
end

section
/-! PROOF. Segments, notes and hit tests (R82 to R85, R95, R96). -/

namespace Sys2Proof.Machine

/-! ### Line boxes do not overlap (R11) -/

/-- The rows of the line box of each kind of slot. -/
theorem Template.boxTop_cases {t : Template} {slot top : Nat} (h : t.boxTop slot = some top) :
    (slot = 0 ∧ t.headHeight ≠ 0 ∧ top = t.headHeight - t.pitch) ∨
    (1 ≤ slot ∧ slot ≤ 208 ∧ slot * t.pitch ≤ t.bodyHeight ∧ top + t.pitch = t.headHeight + slot * t.pitch) ∨
    (slot = 209 ∧ t.footHeight ≠ 0 ∧ top = t.headHeight + t.bodyHeight) := by
  unfold Template.boxTop at h
  split at h
  · next h0 =>
    split at h
    · cases h
    · next hh => exact .inl ⟨h0, hh, (Option.some.inj h).symm⟩
  · next h0 =>
    split at h
    · next h1 =>
      split at h
      · next hk =>
        have hmul : slot * t.pitch ≤ t.bodyHeight :=
          (Nat.mul_le_mul_right _ (by omega)).trans (Nat.div_mul_le_self t.bodyHeight t.pitch)
        have hsplit : slot * t.pitch = (slot - 1) * t.pitch + t.pitch := by
          rw [← Nat.succ_mul, show (slot - 1).succ = slot by omega]
        have := Option.some.inj h
        exact .inr (.inl ⟨by omega, h1, hmul, by omega⟩)
      · cases h
    · split at h
      · next h2 =>
        split at h
        · cases h
        · next hf => exact .inr (.inr ⟨h2, hf, (Option.some.inj h).symm⟩)
      · cases h

theorem Template.boxTop_lt {t : Template} {slot top : Nat} (h : t.boxTop slot = some top) : slot < 210 := by
  rcases Template.boxTop_cases h with h | h | h <;> omega

/-- A row lies in one line box at most. -/
theorem Template.boxTop_unique {t : Template} (ht : t.legal = true) {y i j a b : Nat} (hi : t.boxTop i = some a)
    (hj : t.boxTop j = some b) (ha : a ≤ y ∧ y < a + t.pitch) (hb : b ≤ y ∧ y < b + t.pitch) : i = j := by
  simp only [Template.legal, Bool.and_eq_true, Bool.or_eq_true, decide_eq_true_eq, beq_iff_eq] at ht
  have hbody : 1 ≤ i → 1 ≤ j → a + t.pitch = t.headHeight + i * t.pitch → b + t.pitch = t.headHeight + j * t.pitch →
      i = j := by
    intro _ _ hia hjb
    rcases Nat.lt_trichotomy i j with hlt | heq | hlt
    · have := Nat.mul_le_mul_right t.pitch (Nat.succ_le_of_lt hlt)
      rw [Nat.succ_mul] at this
      omega
    · exact heq
    · have := Nat.mul_le_mul_right t.pitch (Nat.succ_le_of_lt hlt)
      rw [Nat.succ_mul] at this
      omega
  have hpos : ∀ k, 1 ≤ k → t.pitch ≤ k * t.pitch := fun k hk => Nat.le_mul_of_pos_left _ hk
  rcases Template.boxTop_cases hi with ⟨rfl, h1, h2⟩ | ⟨h1, h2, h3, h4⟩ | ⟨rfl, h1, h2⟩ <;>
    rcases Template.boxTop_cases hj with ⟨rfl, k1, k2⟩ | ⟨k1, k2, k3, k4⟩ | ⟨rfl, k1, k2⟩
  · rfl
  · have := hpos j k1
    omega
  · omega
  · have := hpos i h1
    omega
  · exact hbody h1 k1 h4 k4
  · omega
  · omega
  · omega
  · rfl

theorem Template.slotAtRow_some {t : Template} {y slot : Nat} (h : t.slotAtRow y = some slot) :
    ∃ top, t.boxTop slot = some top ∧ top ≤ y ∧ y < top + t.pitch := by
  have := List.find?_some h
  split at this
  · next top htop => exact ⟨top, htop, by simpa using this⟩
  · cases this

theorem Template.slotAtRow_eq {t : Template} (ht : t.legal = true) {y slot top : Nat} (h : t.boxTop slot = some top)
    (hy : top ≤ y ∧ y < top + t.pitch) : t.slotAtRow y = some slot := by
  cases hfind : t.slotAtRow y with
  | none =>
    have := List.find?_eq_none.1 hfind slot (List.mem_range.2 (Template.boxTop_lt h))
    simp [h, hy] at this
  | some k =>
    obtain ⟨a, ha, hya⟩ := Template.slotAtRow_some hfind
    rw [Template.boxTop_unique ht ha h hya hy]

/-! ### Segments (R83, R95) -/

/-- The mark covers the placement. -/
def Mark.covers (m : Mark) (p : Placement) : Prop := m.start ≤ p.offset ∧ p.offset < m.stop

theorem head?_filter_eq_some {α : Type} {f : α → Bool} {l : List α} {x : α} : (l.filter f).head? = some x ↔
    ∃ a b, l = a ++ x :: b ∧ f x = true ∧ ∀ y ∈ a, ¬ f y = true := by
  rw [List.head?_filter, List.find?_eq_some_iff_append]
  simp only [Bool.not_eq_true']
  constructor
  · rintro ⟨hx, a, b, rfl, ha⟩
    exact ⟨a, b, rfl, hx, fun y hy => by simpa using ha y hy⟩
  · rintro ⟨a, b, rfl, hx, ha⟩
    exact ⟨hx, a, b, rfl, fun y hy => by simpa using ha y hy⟩

theorem getLast?_filter_eq_some {α : Type} {f : α → Bool} {l : List α} {x : α} : (l.filter f).getLast? = some x ↔
    ∃ a b, l = a ++ x :: b ∧ f x = true ∧ ∀ y ∈ b, ¬ f y = true := by
  rw [← List.head?_reverse, ← List.filter_reverse, head?_filter_eq_some]
  constructor
  · rintro ⟨a, b, hl, hx, ha⟩
    refine ⟨b.reverse, a.reverse, ?_, hx, fun y hy => ha y (List.mem_reverse.1 hy)⟩
    rw [← List.reverse_reverse l, hl]
    simp
  · rintro ⟨a, b, rfl, hx, hb⟩
    exact ⟨b.reverse, a.reverse, by simp, hx, fun y hy => hb y (List.mem_reverse.1 hy)⟩

theorem Mark.span_iff (m : Mark) (r : LineRecord) (x0 x1 : Nat) : m.span r = some (x0, x1) ↔ r.isSet = true ∧ x0 ≤ x1 ∧
    (∃ a first b, r.placements = a ++ first :: b ∧ m.covers first ∧ (∀ p ∈ a, ¬ m.covers p) ∧ x0 = first.pen) ∧
    (∃ a last b, r.placements = a ++ last :: b ∧ m.covers last ∧ (∀ p ∈ b, ¬ m.covers p) ∧
      x1 + 1 = last.pen + last.width) := by
  have hcov : ∀ p : Placement, (decide (m.start ≤ p.offset) && decide (p.offset < m.stop)) = true ↔ m.covers p := fun p => by
    simp [Mark.covers]
  have hfirst := fun x => head?_filter_eq_some (f := fun p : Placement => m.start ≤ p.offset && p.offset < m.stop)
    (l := r.placements) (x := x)
  have hlast := fun x => getLast?_filter_eq_some (f := fun p : Placement => m.start ≤ p.offset && p.offset < m.stop)
    (l := r.placements) (x := x)
  simp only [hcov] at hfirst hlast
  unfold Mark.span Mark.covered
  by_cases hset : r.isSet = true
  · simp only [if_pos hset]
    constructor
    · intro h
      split at h
      · next first last hf hl =>
        split at h
        · next hlt =>
          obtain ⟨rfl, rfl⟩ := Prod.mk.injEq .. ▸ Option.some.inj h
          obtain ⟨a, b, hab, hx, ha⟩ := (hfirst first).1 hf
          obtain ⟨c, d, hcd, hy, hd⟩ := (hlast last).1 hl
          exact ⟨hset, by omega, ⟨a, first, b, hab, hx, ha, rfl⟩, ⟨c, last, d, hcd, hy, hd, by omega⟩⟩
        · cases h
      · cases h
    · rintro ⟨_, hle, ⟨a, first, b, hab, hx, ha, rfl⟩, ⟨c, last, d, hcd, hy, hd, hx1⟩⟩
      rw [(hfirst first).2 ⟨a, b, hab, hx, ha⟩, (hlast last).2 ⟨c, d, hcd, hy, hd⟩]
      simp only
      rw [if_pos (by omega), show last.pen + last.width - 1 = x1 by omega]
  · simp [hset]

/-! ### The slot beside which a note stands (R84, R96) -/

/-- A slot and an offset that are the highest offset of a relation and its first slot; or none where it is empty. -/
def IsTop (c : Nat → Nat → Prop) : Option (Nat × Nat) → Prop
  | none => ∀ k u, ¬ c k u
  | some (k, o) => c k o ∧ ∀ j u, c j u → u < o ∨ (u = o ∧ k ≤ j)

/-- The highest of some numbers and a number before them, if there is any. -/
def HighestOf (os : List Nat) (best : Option Nat) : Option Nat → Prop
  | none => best = none ∧ os = []
  | some h => (h ∈ os ∨ best = some h) ∧ (∀ u ∈ os, u ≤ h) ∧ ∀ b, best = some b → b ≤ h

/-- The higher of a number and one before it, if there was one. -/
def higherOf (best : Option Nat) (o : Nat) : Option Nat :=
  match best with
  | none => some o
  | some b => some (max b o)

theorem highestOf_cons {o : Nat} {rest : List Nat} {best res : Option Nat}
    (h : HighestOf rest (higherOf best o) res) : HighestOf (o :: rest) best res := by
  cases res with
  | none =>
    obtain ⟨h, _⟩ := h
    cases best <;> cases h
  | some h' =>
    obtain ⟨hmem, hall, hbest⟩ := h
    cases best with
    | none =>
      refine ⟨.inl ?_, List.forall_mem_cons.2 ⟨hbest o rfl, hall⟩, nofun⟩
      rcases hmem with hmem | hmem
      · exact List.mem_cons_of_mem _ hmem
      · rw [Option.some.inj hmem]
        exact List.mem_cons_self ..
    | some b =>
      have hmax := hbest (max b o) rfl
      refine ⟨?_, List.forall_mem_cons.2 ⟨by omega, hall⟩, fun c hc => by cases hc; omega⟩
      rcases hmem with hmem | hmem
      · exact .inl (List.mem_cons_of_mem _ hmem)
      · have := Option.some.inj hmem
        rcases Nat.le_total b o with hle | hle
        · exact .inl (List.mem_cons.2 (.inl (by omega)))
        · exact .inr (congrArg some (by omega))

theorem highestOf_foldl (os : List Nat) (best : Option Nat) : HighestOf os best (os.foldl higherOf best) := by
  induction os generalizing best with
  | nil =>
    cases best with
    | none => exact ⟨rfl, rfl⟩
    | some b => exact ⟨.inr rfl, nofun, fun c hc => by cases hc; exact Nat.le_refl _⟩
  | cons o rest ih => exact highestOf_cons (ih _)

/-- The offsets of a line that a mark covers. -/
def Mark.coveredAt (m : Mark) (r : LineRecord) (o : Nat) : Prop :=
  r.isSet = true ∧ m.start ≤ o ∧ o < m.stop ∧ ∃ p ∈ r.placements, p.offset = o

theorem Mark.mem_covered_offsets (m : Mark) (r : LineRecord) (o : Nat) :
    o ∈ (m.covered r).map Placement.offset ↔ m.coveredAt r o := by
  unfold Mark.covered Mark.coveredAt
  split
  · next hset =>
    simp only [List.mem_map, List.mem_filter, Bool.and_eq_true, decide_eq_true_eq]
    constructor
    · rintro ⟨p, ⟨hp, h1, h2⟩, rfl⟩
      exact ⟨hset, h1, h2, p, hp, rfl⟩
    · rintro ⟨_, h1, h2, p, hp, rfl⟩
      exact ⟨p, ⟨hp, h1, h2⟩, rfl⟩
  · next hset => simp [hset]

theorem Mark.lastOffset_eq (m : Mark) (r : LineRecord) :
    m.lastOffset r = ((m.covered r).map Placement.offset).foldl higherOf none := rfl

/-- An offset that a relation holds of and no higher one; or none where it is empty. -/
def IsHighest (c : Nat → Prop) : Option Nat → Prop
  | none => ∀ u, ¬ c u
  | some o => c o ∧ ∀ u, c u → u ≤ o

theorem Mark.lastOffset_isHighest (m : Mark) (r : LineRecord) : IsHighest (m.coveredAt r) (m.lastOffset r) := by
  have h := highestOf_foldl ((m.covered r).map Placement.offset) none
  rw [← Mark.lastOffset_eq] at h
  cases hoff : m.lastOffset r with
  | none =>
    rw [hoff] at h
    intro u hu
    rw [← Mark.mem_covered_offsets, h.2] at hu
    cases hu
  | some o =>
    rw [hoff] at h
    obtain ⟨hmem, hall, _⟩ := h
    exact ⟨(m.mem_covered_offsets r o).1 (hmem.resolve_right nofun),
      fun u hu => hall u ((m.mem_covered_offsets r u).2 hu)⟩

/-- The highest offset and its first slot, after one more slot with its highest offset. -/
def topStep (slot : Nat) (off : Option Nat) (best : Option (Nat × Nat)) : Option (Nat × Nat) :=
  match off, best with
  | none, b => b
  | some o, none => some (slot, o)
  | some o, some (k, b) => if b < o then some (slot, o) else some (k, b)

theorem Mark.lastSlotFrom_cons (m : Mark) (l : LineSlot) (rest : List LineSlot) (slot : Nat)
    (best : Option (Nat × Nat)) : m.lastSlotFrom (l :: rest) slot best =
      m.lastSlotFrom rest (slot + 1) (topStep slot (m.lastOffset l.record) best) := rfl

theorem isTop_topStep {c : Nat → Nat → Prop} {slot : Nat} {off : Option Nat} {best : Option (Nat × Nat)}
    (hbest : IsTop (fun k u => c k u ∧ k < slot) best) (hoff : IsHighest (c slot) off) :
    IsTop (fun k u => c k u ∧ k < slot + 1) (topStep slot off best) := by
  have hlt : ∀ k, k < slot + 1 → k < slot ∨ k = slot := fun k h => by omega
  cases off with
  | none =>
    have same : ∀ k u, (c k u ∧ k < slot + 1) ↔ (c k u ∧ k < slot) := fun k u => by
      refine ⟨fun ⟨h, hk⟩ => ⟨h, ?_⟩, fun ⟨h, hk⟩ => ⟨h, by omega⟩⟩
      rcases hlt k hk with hk | rfl
      · exact hk
      · exact absurd h (hoff u)
    simpa only [same, topStep] using hbest
  | some o =>
    obtain ⟨ho, hslot⟩ := hoff
    have mine : IsTop (fun k u => c k u ∧ k < slot) best → (∀ k b, best = some (k, b) → b < o) →
        IsTop (fun k u => c k u ∧ k < slot + 1) (some (slot, o)) := by
      refine fun hbest hlow => ⟨⟨ho, by omega⟩, fun k u ⟨hk, hklt⟩ => ?_⟩
      rcases hlt k hklt with hklt | rfl
      · cases best with
        | none => exact absurd ⟨hk, hklt⟩ (hbest k u)
        | some kb =>
          have := hbest.2 k u ⟨hk, hklt⟩
          have := hlow kb.1 kb.2 rfl
          omega
      · have := hslot u hk
        omega
    cases best with
    | none => exact mine hbest nofun
    | some kb =>
      obtain ⟨kb, b⟩ := kb
      unfold topStep
      simp only
      split
      · next hbo => exact mine hbest fun k b' h => by cases h; exact hbo
      · next hbo =>
        obtain ⟨⟨hkb, hkblt⟩, htop⟩ := hbest
        refine ⟨⟨hkb, by omega⟩, fun k u ⟨hk, hklt⟩ => ?_⟩
        rcases hlt k hklt with hklt | rfl
        · exact htop k u ⟨hk, hklt⟩
        · have := hslot u hk
          omega

theorem Mark.lastSlotFrom_isTop (m : Mark) (c : Nat → Nat → Prop) (rest : List LineSlot) (slot : Nat)
    (best : Option (Nat × Nat)) (hbest : IsTop (fun k u => c k u ∧ k < slot) best)
    (hrest : ∀ i l, rest[i]? = some l → c (slot + i) = m.coveredAt l.record) :
    IsTop (fun k u => c k u ∧ k < slot + rest.length) (m.lastSlotFrom rest slot best) := by
  induction rest generalizing slot best with
  | nil => exact hbest
  | cons l rest ih =>
    have hl : c slot = m.coveredAt l.record := hrest 0 l rfl
    have hlen : slot + (l :: rest).length = slot + 1 + rest.length := by rw [List.length_cons]; omega
    rw [hlen, Mark.lastSlotFrom_cons]
    refine ih (slot + 1) _ (isTop_topStep hbest (hl ▸ m.lastOffset_isHighest l.record)) fun i l' hl' => ?_
    rw [show slot + 1 + i = slot + (i + 1) by omega]
    exact hrest (i + 1) l' (by simpa using hl')

theorem LineTable.slot_of_getElem? {lines : LineTable} {i : Nat} {l : LineSlot} (h : lines.toList[i]? = some l) :
    lines.slot i = l := by
  obtain ⟨hi, rfl⟩ := List.getElem?_eq_some_iff.1 h
  have hi : i < 210 := by simpa using hi
  simp [LineTable.slot, look, hi]

/-- The note of a mark stands beside the first slot that holds the covered placement of highest offset. -/
theorem Mark.noteSlot_iff (m : Mark) (lines : LineTable) {slot : Nat} (hslot : slot < 210) :
    m.noteSlot lines = some slot ↔ ∃ o, m.coveredAt (lines.slot slot).record o ∧
      ∀ k u, m.coveredAt (lines.slot k).record u → u < o ∨ (u = o ∧ slot ≤ k) := by
  have htop := m.lastSlotFrom_isTop (fun k u => m.coveredAt (lines.slot k).record u) lines.toList 0 none
    (fun k u h => Nat.not_lt_zero _ h.2) (fun i l hl => by
      rw [Nat.zero_add, LineTable.slot_of_getElem? hl])
  have hlen : 0 + lines.toList.length = 210 := by simp
  have hwithin : ∀ k u, m.coveredAt (lines.slot k).record u → k < 210 := fun k u h => by
    by_contra hk
    rw [LineTable.slot, look_of_ge _ _ _ (by omega)] at h
    cases h.1
  rw [hlen] at htop
  unfold Mark.noteSlot
  cases hfind : m.lastSlotFrom lines.toList 0 none with
  | none =>
    rw [hfind] at htop
    refine ⟨nofun, fun ⟨o, ho, _⟩ => absurd ⟨ho, hslot⟩ (htop slot o)⟩
  | some ko =>
    obtain ⟨k, o⟩ := ko
    rw [hfind] at htop
    obtain ⟨⟨hk, _⟩, hall⟩ := htop
    have hall : ∀ j u, m.coveredAt (lines.slot j).record u → u < o ∨ (u = o ∧ k ≤ j) := fun j u h =>
      hall j u ⟨h, hwithin j u h⟩
    simp only [Option.map_some, Option.some.injEq]
    constructor
    · rintro rfl
      exact ⟨o, hk, hall⟩
    · rintro ⟨p, hp, hpall⟩
      have h1 := hpall k o hk
      have h2 := hall slot p hp
      omega

/-! ### Notes (R84, R96) -/

theorem insertById_perm (m : Mark) (l : List Mark) : (insertById m l).Perm (m :: l) := by
  induction l with
  | nil => exact .refl _
  | cons h rest ih =>
    unfold insertById
    split
    · exact .refl _
    · exact (ih.cons h).trans (.swap ..)

/-- Folding with an insertion gives the elements that were inserted. -/
theorem foldr_insert_perm {α : Type} {f : α → List α → List α} (hf : ∀ x l, (f x l).Perm (x :: l)) (l : List α) :
    (l.foldr f []).Perm l := by
  induction l with
  | nil => exact .refl _
  | cons a rest ih => exact (hf a _).trans (ih.cons a)

theorem mem_notesBeside {table : List Mark} {lines : LineTable} {slot : Nat} {m : Mark} :
    m ∈ notesBeside table lines slot ↔
      m ∈ table ∧ m.muted = false ∧ (∃ tag, m.tag = some tag) ∧ m.noteSlot lines = some slot := by
  rw [notesBeside, (foldr_insert_perm insertById_perm _).mem_iff]
  simp only [List.mem_filter, Bool.and_eq_true, Bool.not_eq_true', beq_iff_eq, Option.isSome_iff_exists, and_assoc]

theorem mem_placeNotes {fs : FaceStore} {noteFace : Nat} {x : Nat} {ms : List Mark} {m : Mark} {g : Glyph} :
    (∃ n ∈ placeNotes fs noteFace x ms, n.mark = m ∧ n.glyph = g) ↔
      m ∈ ms ∧ fs.exactLookup noteFace (0xE000 + m.tag.getD 0) = some g := by
  induction ms generalizing x with
  | nil => simp [placeNotes]
  | cons a rest ih =>
    rw [placeNotes]
    cases hlook : fs.exactLookup noteFace (0xE000 + a.tag.getD 0) with
    | none =>
      refine ih.trans ⟨fun ⟨h, hg⟩ => ⟨List.mem_cons_of_mem _ h, hg⟩, fun ⟨h, hg⟩ => ?_⟩
      rcases List.mem_cons.1 h with rfl | h
      · rw [hlook] at hg
        cases hg
      · exact ⟨h, hg⟩
    | some k =>
      refine (List.exists_mem_cons_iff (fun n : Note => n.mark = m ∧ n.glyph = g) ..).trans ?_
      rw [ih, List.mem_cons]
      constructor
      · rintro (⟨rfl, rfl⟩ | ⟨h, hg⟩)
        · exact ⟨.inl rfl, hlook⟩
        · exact ⟨.inr h, hg⟩
      · rintro ⟨rfl | h, hg⟩
        · rw [hlook] at hg
          exact .inl ⟨rfl, Option.some.inj hg⟩
        · exact .inr ⟨h, hg⟩

theorem FaceStore.Sound.exactLookup_iff {fs : FaceStore} {tk : Taking} (h : fs.Sound tk) {f code : Nat} {g : Glyph} :
    fs.exactLookup f code = some g ↔ fs.Ready f ∧ g ∈ fs.directory ∧ g.face = f ∧ g.code = code := by
  unfold FaceStore.exactLookup FaceStore.Ready
  split
  · next hready =>
    refine ⟨fun hg => ⟨hready, FaceStore.entry_some hg⟩, ?_⟩
    rintro ⟨_, hg, rfl, rfl⟩
    exact h.entry_eq hg
  · next hready => exact ⟨nofun, fun hg => absurd hg.1 hready⟩

/-- Settles O44: a segment by its first and last covered placement; a note by the slot of its highest one. -/
theorem segmentsAndNotesOfALine : Obligations.SegmentsAndNotesOfALine := by
  refine ⟨fun m r x0 x1 => m.span_iff r x0 x1, fun s slot _ hfaces hslot => ?_⟩
  intro noteFace covered beside draws m g
  rw [lineNotes, mem_placeNotes, mem_notesBeside, m.noteSlot_iff _ hslot,
    ((State.facesSound_iff s).1 hfaces).exactLookup_iff]
  constructor
  · rintro ⟨hm, hmuted, hbeside, hready, hg, hface, tag, htag, hcode⟩
    exact ⟨⟨hm, hmuted, ⟨tag, htag⟩, hbeside⟩, hready, hg, hface, by rw [htag]; exact hcode⟩
  · rintro ⟨⟨hm, hmuted, ⟨tag, htag⟩, hbeside⟩, hready, hg, hface, hcode⟩
    exact ⟨hm, hmuted, hbeside, hready, hg, hface, tag, htag, by rw [htag] at hcode; exact hcode⟩

/-! ### Hit tests (R82, R85) -/

/-- One candidate stands before another: higher layer, or the same and higher id. -/
def Mark.above (a b : Mark) : Prop := b.layer < a.layer ∨ (b.layer = a.layer ∧ b.id < a.id)

theorem insertCandidate_perm (m : Mark) (l : List Mark) : (insertCandidate m l).Perm (m :: l) := by
  induction l with
  | nil => exact .refl _
  | cons h rest ih =>
    unfold insertCandidate
    split
    · exact .refl _
    · exact (ih.cons h).trans (.swap ..)

theorem insertCandidate_order {m : Mark} {l : List Mark} (h : l.Pairwise Mark.above) (hnew : ∀ k ∈ l, k.id ≠ m.id) :
    (insertCandidate m l).Pairwise Mark.above := by
  induction l with
  | nil => exact List.pairwise_singleton ..
  | cons a rest ih =>
    obtain ⟨ha, hrest⟩ := List.pairwise_cons.1 h
    obtain ⟨hne, hnew⟩ := List.forall_mem_cons.1 hnew
    unfold insertCandidate
    split
    · next hbefore =>
      refine List.pairwise_cons.2 ⟨fun k hk => ?_, h⟩
      unfold Mark.above
      rcases List.mem_cons.1 hk with rfl | hk
      · omega
      · have := ha k hk
        unfold Mark.above at this
        omega
    · next hafter =>
      refine List.pairwise_cons.2 ⟨fun k hk => ?_, ih hrest hnew⟩
      rcases List.mem_cons.1 ((insertCandidate_perm m rest).mem_iff.1 hk) with rfl | hk
      · unfold Mark.above
        omega
      · exact ha k hk

theorem foldr_insertCandidate_order {l : List Mark} (hids : (l.map Mark.id).Nodup) :
    (l.foldr insertCandidate []).Pairwise Mark.above := by
  induction l with
  | nil => exact .nil
  | cons a rest ih =>
    obtain ⟨ha, hids⟩ := List.nodup_cons.1 hids
    refine insertCandidate_order (ih hids) fun k hk hid => ha (List.mem_map.2 ⟨k, ?_, hid⟩)
    exact (foldr_insert_perm insertCandidate_perm rest).mem_iff.1 hk

theorem mem_candidates {fs : FaceStore} {t : Template} {table : List Mark} {lines : LineTable} {slot x : Nat} {m : Mark} :
    m ∈ candidates fs t table lines slot x ↔ m ∈ table ∧ m.muted = false ∧
      ((∃ a b, m.span (lines.slot slot).record = some (a, b) ∧ a ≤ x ∧ x ≤ b) ∨
        ∃ n ∈ lineNotes fs t table lines slot, n.mark.id = m.id ∧ n.x ≤ x ∧ x < n.x + n.glyph.advance ∧ x ≤ 1247) := by
  have hspan : (match m.span (lines.slot slot).record with
      | some (x0, x1) => decide (x0 ≤ x) && decide (x ≤ x1)
      | none => false) = true ↔ ∃ a b, m.span (lines.slot slot).record = some (a, b) ∧ a ≤ x ∧ x ≤ b := by
    cases m.span (lines.slot slot).record with
    | none => simp
    | some c => simp [Prod.ext_iff]
  rw [candidates, (foldr_insert_perm insertCandidate_perm _).mem_iff]
  simp only [List.mem_filter, Bool.and_eq_true, Bool.or_eq_true, Bool.not_eq_true', List.any_eq_true, beq_iff_eq,
    Note.holds, decide_eq_true_eq, and_assoc]
  exact and_congr_right fun _ => and_congr_right fun _ => or_congr_left hspan

/-- Settles O43: the row names one slot at most, and its candidates are found and stand in order. -/
theorem hitTestFindsTheMarksUnderAPoint : Obligations.HitTestFindsTheMarksUnderAPoint := by
  intro s x y hlines hmarks t atRow found
  obtain ⟨hlegal, -⟩ := hlines
  have hids := ((State.marksSound_iff s).1 hmarks).table.ids
  have at_ : ∀ slot, atRow slot → t.slotAtRow y = some slot := fun slot ⟨top, htop, h⟩ =>
    Template.slotAtRow_eq hlegal htop h
  refine ⟨fun slot hrow hset m => ?_, fun slot hrow hset => ?_, fun hno => ?_, ?_⟩
  · rw [State.hits, at_ slot hrow]
    simp only [if_pos hset]
    exact mem_candidates
  · rw [State.hits, at_ slot hrow]
    simp only [hset, Bool.false_eq_true, if_false]
  · rw [State.hits]
    split
    · rfl
    · next slot hslot => exact absurd (Template.slotAtRow_some hslot) (hno slot)
  · rw [State.hits]
    split
    · exact .nil
    · split
      · exact foldr_insertCandidate_order ((List.filter_sublist.map _).nodup hids)
      · exact .nil

end Sys2Proof.Machine
end

section
/-! PROOF. One elementary change for each block, each keeping its block's law, and the shared operations of the link as
chains of them (11.1, 11.2). A row is then a chain of elementary changes or a reset, and a law of a safe state is kept by
every step if every elementary change and the three resets keep it. -/

namespace Sys2Proof.Machine

open Relation (ReflTransGen)

/-! ### Elementary changes -/

/-- The rows in which a pixel of the target plane can be written (R4). -/
def WritesPixels (c : Instr) : Prop :=
  c = .arbiterWriteGrant ∨ c = .renderDone ∨ c = .imageWriteByte ∨ c = .fillComplete

/-- One elementary change of a block that the row `c` can make. -/
inductive State.Move (c : Instr) : State → State → Prop
  | panel (s t : State) (h : s.PanelMove c t) : Move c s t
  | link (s : State) (l : Link) (htaking : l.taking = s.link.taking) (hbytes : s.link.bytes ≤ 256 → l.bytes ≤ 256) :
    Move c s { s with link := l }
  | taking (s : State) (tk : Taking) (hold : s.link.taking ≠ .glyph) (hnew : tk ≠ .glyph)
    (himage : tk = .image → s.port.isFilling = false) : Move c s (s.setTaking tk)
  | faces (s : State) (fs : FaceStore) (tk : Taking) (hsound : s.faces.Sound s.link.taking → fs.Sound tk)
    (hpool : s.faces.pool.wf = true → fs.pool.wf = true) (himage : tk = .image → s.link.taking = .image)
    (hsteady : c ≠ .faceSeal → s.faces.Sound s.link.taking → s.faces.pool.wf = true → ∀ f, s.faces.Steady f fs) :
    Move c s (({ s with faces := fs } : State).setTaking tk)
  | page (s : State) (st : Setter) (lines : LineTable) (r : Renderer)
    (hlines : s.LinesSound → State.LinesSound { s with setter := st, lines := lines, renderer := r })
    (hlist : ListRises s.renderer.list → ListRises r.list)
    (hlegal : s.setter.template.legal = true → st.template.legal = true) :
    Move c s { s with setter := st, lines := lines, renderer := r }
  | marks (s : State) (m : MarkUnit) (h : s.marks.Sound → m.Sound) : Move c s { s with marks := m }
  | pixel (s : State) (x y : Nat) (v : Level) (turn : Client) (hc : WritesPixels c) :
    Move c s { s with image := { s.image with target := s.image.target.setPixel x y v, turn := turn } }
  | port (s : State) (p : ImagePort) (h : s.PortSound → State.PortSound { s with port := p })
    (hwindow : s.port.window.onPanel → p.window.onPanel) : Move c s { s with port := p }
  | power (s : State) (p : Power) (h : p.asleep = true → s.power.asleep = true ∨ c = .sleep) :
    Move c s { s with power := p }

/-- A chain of elementary changes. -/
abbrev State.Moves (c : Instr) (s t : State) : Prop := ReflTransGen (State.Move c) s t

theorem State.PanelMoves.moves {c : Instr} {s t : State} (h : s.PanelMoves c t) : s.Moves c t :=
  Relation.ReflTransGen.mono (fun a b hab => State.Move.panel a b hab) _ _ h

variable {c : Instr}

theorem State.Moves.one {s t : State} (h : s.Move c t) : s.Moves c t := .single h

/-! ### Small chains -/

theorem State.Moves.raise {s t : State} (h : s.Moves c t) (e : Event) : s.Moves c (t.raise e) :=
  h.tail (.panel _ _ (.events t _))

/-- A change of the link that keeps its FIFO and what is being taken. -/
theorem State.onLink_moves (s : State) (l : Link) (htaking : l.taking = s.link.taking) (hfifo : l.fifo = s.link.fifo) :
    s.Moves c { s with link := l } :=
  .one (.link s l htaking fun h => by rwa [Link.bytes, hfifo])

theorem State.refuse_moves (code : Byte) (reason : Reason) (s : State) : s.Moves c (s.refuse code reason) :=
  State.Moves.raise (State.onLink_moves s { s.link with lastRefusal := ⟨code, reason.code⟩ } rfl rfl) .commandRefused

theorem tail_bytes_le (fifo : List FifoItem) :
    (fifo.tail.filter FifoItem.isByte).length ≤ (fifo.filter FifoItem.isByte).length :=
  ((List.tail_sublist fifo).filter _).length_le

theorem State.dropFront_moves (s : State) : s.Moves c s.dropFront :=
  .one (.link s _ rfl fun h => (tail_bytes_le s.link.fifo).trans h)

theorem State.onDrive_moves (s : State) (d : PanelDrive) (hf : d.frame = s.drive.frame) (hd : d.driven = s.drive.driven) :
    s.Moves c { s with drive := d } := .one (.panel _ _ (.drive s d hf hd))

theorem State.giveReply_moves (r : Reply) (s : State) : s.Moves c (s.giveReply r) := by
  rw [State.giveReply_eq]
  exact State.onLink_moves s _ rfl rfl

theorem State.post_moves' (r : Request) (s : State) (hr : s.RectsOnPanel → r.rect.onPanel) : s.Moves c (s.post r) :=
  (State.post_moves c r s hr).moves

theorem State.scan_moves' (s : State) : s.Moves c s.scan := (State.scan_moves c s).moves

/-! ### The end of a command or stream -/

theorem State.postWindow_moves (s : State) : s.Moves c s.postWindow := by
  unfold State.postWindow
  split
  · exact .refl
  · exact State.post_moves' _ s fun h => h.2.2.1

theorem State.endPortWork_moves (s : State) : s.Moves c s.endPortWork :=
  ReflTransGen.trans (.single (.port s { s.port with state := .idle } (fun h => ⟨h.1, nofun⟩) id)) (State.postWindow_moves _)

theorem State.setTaking_moves (s : State) {tk : Taking} (hold : s.link.taking ≠ .glyph) (hnew : tk ≠ .glyph)
    (himage : tk ≠ .image) : s.Moves c (s.setTaking tk) :=
  .one (.taking s tk hold hnew fun h => absurd h himage)

/-- What is being taken ends, and something other than a stream of glyphs or pixels is being taken from now on. -/
theorem State.endTaking_moves (s : State) {next : Taking} (hnext : next ≠ .glyph) (himage : next ≠ .image) :
    s.Moves c (s.endTaking.setTaking next) := by
  have plain : ∀ u : State, s.Moves c u → u.link.taking = s.link.taking → s.link.taking ≠ .glyph →
      s.Moves c (u.setTaking next) := fun u hu htk hne =>
    hu.trans (State.setTaking_moves u (by rw [htk]; exact hne) hnext himage)
  unfold State.endTaking
  split
  · next h => exact plain s .refl rfl (by simp [h])
  · next h => exact plain s .refl rfl (by simp [h])
  · next h => exact plain _ (State.refuse_moves _ _ s) rfl (by simp [h])
  · next run h =>
    refine plain _ ?_ ?_ (by simp [h])
    · unfold State.endTextStream
      split
      · exact .refl
      · exact State.refuse_moves _ _ s
    · unfold State.endTextStream
      split <;> rfl
  · next h =>
    have discard : s.Moves c (({ s with faces := s.faces.discardReceiving } : State).setTaking next) := by
      refine .one (.faces s _ next (fun hs => hs.discard hnext) (fun hp => ?_) (fun hi => absurd hi himage)
        fun _ hs _ f => hs.discard_steady f)
      rw [s.faces.discardReceiving_rest.2.1]
      exact hp
    unfold State.endGlyphStream
    split
    · next hr =>
      have : s.faces.discardReceiving = s.faces := by rw [FaceStore.discardReceiving, hr]
      rw [this] at discard
      exact discard
    · exact discard.trans (State.refuse_moves Cmd.glyphPut.code .short _)
  · next m band h =>
    refine plain _ ?_ rfl (by simp [h])
    exact ReflTransGen.trans
      (State.onDrive_moves s { s.drive with tables := put s.drive.tables (tableIndex m band) .absent } rfl rfl)
      (State.refuse_moves _ _ _)
  · next h => exact plain _ (State.endPortWork_moves s) (congrArg Link.taking (State.endPortWork_eq s).1.link) (by simp [h])

theorem State.endCommand_moves (s : State) {next : Taking} (hnext : next ≠ .glyph) (himage : next ≠ .image) :
    s.Moves c (s.endCommand next) :=
  (State.dropFront_moves s).trans (State.endTaking_moves _ hnext himage)

theorem State.settleCut_moves (s : State) : s.Moves c s.settleCut := by
  unfold State.settleCut
  split
  · exact State.endCommand_moves s (by simp) (by simp)
  · exact .refl

/-! ### The arrival of a byte at which a command acts -/

theorem State.atCommand_moves {cmd : Cmd} {act : State → State}
    (hact : ∀ u : State, u.link.taking = .ignoring → u.Moves c (act u)) (s : State) : s.Moves c (s.atCommand cmd act) := by
  unfold State.atCommand
  split
  · split
    · simp only
      have first : s.Moves c (s.endCommand .ignoring) := State.endCommand_moves s (by simp) (by simp)
      refine (first.trans ?_).trans (State.settleCut_moves _)
      split
      · exact State.refuse_moves _ _ _
      · exact hact _ rfl
    · exact .refl
  · exact .refl

theorem State.atLastParam_moves {cmd : Cmd} {act : List Byte → State → State}
    (hact : ∀ (ps : List Byte) (u : State), u.link.taking = .ignoring → u.Moves c (act ps u)) (s : State) :
    s.Moves c (s.atLastParam cmd act) := by
  unfold State.atLastParam
  split
  · next b rest d got hf ht =>
    split
    · refine ReflTransGen.trans ?_ (State.settleCut_moves _)
      refine ((State.dropFront_moves s).trans (State.setTaking_moves _ ?_ (by simp) (by simp))).trans (hact _ _ rfl)
      rw [State.dropFront_taking, ht]
      nofun
    · exact .refl
  · exact .refl

theorem State.atStreamByte_moves {stream : Taking → Bool} {act : Byte → State → State}
    (hact : ∀ (b : Byte) (u : State), stream u.link.taking = true → u.Moves c (act b u)) (s : State) :
    s.Moves c (s.atStreamByte stream act) := by
  unfold State.atStreamByte
  split
  · split
    · next h => exact ((State.dropFront_moves s).trans (hact _ _ h)).trans (State.settleCut_moves _)
    · exact .refl
  · exact .refl

/-! ### Arrivals at which no command acts -/

theorem State.csArrives_moves (s : State) : s.Moves c s.csArrives := by
  unfold State.csArrives
  split
  · exact State.endCommand_moves s (by simp) (by simp)
  · exact .refl

theorem State.droppedArrives_moves (s : State) : s.Moves c s.droppedArrives := by
  unfold State.droppedArrives
  split
  · exact (State.endCommand_moves s (by simp) (by simp)).trans (State.refuse_moves _ _ _)
  · exact .refl

theorem State.unknownArrives_moves (s : State) : s.Moves c s.unknownArrives := by
  have refused : ∀ code reason, s.Moves c ((s.endCommand .ignoring).refuse code reason).settleCut := fun code reason =>
    ((State.endCommand_moves s (by simp) (by simp)).trans (State.refuse_moves _ _ _)).trans (State.settleCut_moves _)
  unfold State.unknownArrives
  split
  · split
    · exact refused _ _
    · split
      · exact refused _ _
      · exact .refl
  · exact .refl

theorem State.openCommand_moves (cmd : Cmd) (s : State) : s.Moves c (s.openCommand cmd) := by
  unfold State.openCommand
  refine ((State.endCommand_moves s (next := .ignoring) (by simp) (by simp)).trans ?_).trans (State.settleCut_moves _)
  split
  · exact State.refuse_moves _ _ _
  · exact State.setTaking_moves _ (by simp [State.endCommand]) (by simp) (by simp)

theorem State.byteArrives_moves (s : State) : s.Moves c s.byteArrives := by
  have passed : s.Moves c s.dropFront.settleCut := (State.dropFront_moves s).trans (State.settleCut_moves _)
  unfold State.byteArrives
  split
  · split
    · split
      · exact .refl
      · exact State.openCommand_moves _ s
    · exact .refl
  · split
    · next cmd got ht =>
      split
      · refine ((State.dropFront_moves s).trans (State.setTaking_moves _ ?_ (by simp) (by simp))).trans
          (State.settleCut_moves _)
        rw [State.dropFront_taking, ht]
        nofun
      · exact .refl
    · exact passed
    · exact passed
    · exact .refl
  · exact State.settleCut_moves s
  · exact .refl

/-! ### Reads -/

theorem State.refuseRead_moves (cmd : Cmd) (reason : Reason) (s : State) : s.Moves c (s.refuseRead cmd reason) :=
  (State.refuse_moves _ _ s).trans (State.giveReply_moves _ _)

theorem State.lineRead_moves (ps : List Byte) (s : State) : s.Moves c (s.lineRead ps) := by
  unfold State.lineRead
  split
  · exact State.refuseRead_moves _ _ s
  · exact State.giveReply_moves _ s

theorem State.faceInfo_moves (ps : List Byte) (s : State) : s.Moves c (s.faceInfo ps) := by
  unfold State.faceInfo
  split
  · exact State.refuseRead_moves _ _ s
  · exact State.giveReply_moves _ s

theorem State.answerRead_moves (s : State) : s.Moves c s.answerRead :=
  (State.giveReply_moves _ s).trans (.single (.marks _ _ fun h => h.withTable h.table _ _))

theorem State.imageRead_moves (ps : List Byte) (s : State) : s.Moves c (s.imageRead ps) := by
  unfold State.imageRead
  split
  · exact State.refuseRead_moves _ _ s
  · split
    · exact State.refuseRead_moves _ _ s
    · exact State.giveReply_moves _ s

theorem State.takeRead_moves (cmd : Cmd) (s : State) : s.Moves c (s.takeRead cmd) := by
  unfold State.takeRead
  split
  · exact State.atCommand_moves (fun u _ => State.giveReply_moves _ u) s
  · exact State.atCommand_moves (fun u _ => State.giveReply_moves _ u) s
  · exact State.atCommand_moves (fun u _ => State.giveReply_moves _ u) s
  · exact State.atCommand_moves (fun u _ => State.answerRead_moves u) s
  · exact State.atLastParam_moves (fun ps u _ => State.lineRead_moves ps u) s
  · exact State.atLastParam_moves (fun ps u _ => State.faceInfo_moves ps u) s
  · exact State.atLastParam_moves (fun ps u _ => State.imageRead_moves ps u) s
  · exact .refl

theorem State.takeFront_moves (s : State) : s.Moves c s.takeFront := by
  unfold State.takeFront
  split
  · exact .refl
  · split
    · split
      · exact State.takeRead_moves _ s
      · exact State.byteArrives_moves s
    · exact .refl
  · split
    · split
      · exact State.takeRead_moves _ s
      · exact State.byteArrives_moves s
    · exact State.byteArrives_moves s
  · exact State.csArrives_moves s
  · exact State.droppedArrives_moves s
  · exact State.settleCut_moves s

theorem State.readAhead_moves (s : State) : s.Moves c s.readAhead := by
  unfold State.readAhead
  split
  · exact takeItems_keeps (P := fun t => s.Moves c t) (fun u hu => hu.trans (State.takeFront_moves u)) _ s .refl
  · exact .refl

/-! ### Bytes clocked in -/

theorem Link.bytes_keep (l : Link) (i : FifoItem) :
    (l.keep i).bytes = l.bytes + if i.isByte = true then 1 else 0 := by
  simp only [Link.bytes, Link.keep, List.filter_append, List.length_append]
  congr 1
  cases h : i.isByte <;> simp [h]

/-- An item joins the FIFO where it does not take a 257th place. -/
theorem State.keep_moves (s : State) (i : FifoItem) (l : Link) (hi : i.isByte = false ∨ s.link.full = false)
    (hfifo : l.fifo = (s.link.keep i).fifo) (htaking : l.taking = s.link.taking) : s.Moves c { s with link := l } := by
  refine .one (.link s l htaking fun h => ?_)
  have hl : l.bytes = s.link.bytes + if i.isByte = true then 1 else 0 := by
    rw [← Link.bytes_keep, Link.bytes, Link.bytes, hfifo]
  rw [hl]
  rcases hi with hi | hi
  · simpa [hi] using h
  · simp only [Link.full, Config.fifoPlaces, decide_eq_false_iff_not] at hi
    split <;> omega

theorem State.clockCommand_moves (b : Byte) (s : State) : s.Moves c (s.clockCommand b) := by
  unfold State.clockCommand
  split
  · refine State.Moves.raise ?_ _
    exact State.keep_moves s (.dropped b) _ (.inl rfl) rfl rfl
  · next h => exact State.keep_moves s (.byte .command b) _ (.inr (by simpa using h)) rfl rfl

theorem State.csEdge_moves (s : State) : s.Moves c s.csEdge := by
  unfold State.csEdge
  split
  · exact State.onLink_moves s _ rfl rfl
  · exact State.keep_moves s .csRise _ (.inl rfl) rfl rfl

theorem State.clockParameter_moves (b : Byte) (s : State) : s.Moves c (s.clockParameter b) := by
  unfold State.clockParameter
  simp only
  split
  · exact State.onLink_moves s _ rfl rfl
  · exact (State.readAhead_moves s).trans (State.onLink_moves _ _ rfl rfl)
  · split
    · refine State.Moves.raise ?_ _
      exact State.keep_moves s .cut _ (.inl rfl) rfl rfl
    · next h => exact State.keep_moves s (.byte .parameter b) _ (.inr (by simpa using h)) rfl rfl
  · split
    · refine State.Moves.raise ?_ _
      exact State.keep_moves s .cut _ (.inl rfl) rfl rfl
    · next h => exact State.keep_moves s (.byte .parameter b) _ (.inr (by simpa using h)) rfl rfl
  · split
    · refine State.Moves.raise ?_ _
      exact State.onLink_moves s _ rfl rfl
    · next h => exact State.keep_moves s (.byte .parameter b) _ (.inr (by simpa using h)) rfl rfl

end Sys2Proof.Machine
end

section
/-! PROOF. Every row as a chain of elementary changes, but for power-on and the resets. -/

namespace Sys2Proof.Machine

open Relation (ReflTransGen)

variable {c : Instr}

/-! ### The panel drive -/

theorem State.tempSet_moves (ps : List Byte) (s : State) : s.Moves c (s.tempSet ps) := by
  unfold State.tempSet State.reportReading
  simp only
  have first : s.Moves c (s.onDrive fun d => { d with
      reading := some (temperatureOf ps), age := .running, band := d.bandAfter (temperatureOf ps)
      firstReading := false }) := State.onDrive_moves s _ rfl rfl
  split
  · exact first.trans (State.scan_moves' _)
  · exact first

theorem State.bandsSet_moves (ps : List Byte) (s : State) : s.Moves c (s.bandsSet ps) := by
  unfold State.bandsSet
  split
  · exact State.refuse_moves _ _ s
  · next b _ =>
    have first : s.Moves c (s.onDrive fun d => { d with bands := b, band := b.bandHeld d.reading d.band }) :=
      State.onDrive_moves s _ rfl rfl
    unfold State.reportReading
    split
    · exact first.trans (State.scan_moves' _)
    · exact first

theorem State.waveLoad_moves (ps : List Byte) (s : State) (ht : s.link.taking = .ignoring) : s.Moves c (s.waveLoad ps) := by
  unfold State.waveLoad
  split
  · exact State.refuse_moves _ _ s
  · next m band length _ =>
    split
    · exact State.refuse_moves _ _ s
    · have first : s.Moves c (s.onDrive fun d => d.setTable m band (.loading length [])) :=
        State.onDrive_moves s _ rfl rfl
      exact first.trans (State.setTaking_moves _ (by simp [ht]) (by simp) (by simp))

theorem State.waveByte_moves (b : Byte) (s : State) : s.Moves c (s.waveByte b) := by
  unfold State.waveByte
  split
  · next m band ht =>
    split
    · next n data _ =>
      have stored : ∀ w, s.Moves c (s.onDrive fun d => d.setTable m band w) := fun w => State.onDrive_moves s _ rfl rfl
      split
      · refine ((stored _).trans (State.setTaking_moves _ ?_ (by simp) (by simp))).trans (State.scan_moves' _)
        simp [ht]
      · exact stored _
    · exact .refl
  · exact .refl

theorem State.ageExpires_moves (s : State) : s.Moves c s.ageExpires := by
  unfold State.ageExpires
  split
  · refine State.Moves.raise ?_ _
    exact State.onDrive_moves s _ rfl rfl
  · exact .refl

/-! ### The face store -/

/-- The face store takes a new content while the link goes on taking what it took. -/
theorem State.faces_moves (s : State) (fs : FaceStore) (hsound : s.faces.Sound s.link.taking → fs.Sound s.link.taking)
    (hpool : fs.pool = s.faces.pool)
    (hsteady : c ≠ .faceSeal → s.faces.Sound s.link.taking → ∀ f, s.faces.Steady f fs) :
    s.Moves c { s with faces := fs } :=
  .single (.faces s fs s.link.taking hsound (fun h => hpool ▸ h) id fun hc hs _ => hsteady hc hs)

theorem faceOpenOf_face {ps : List Byte} {o : FaceOperands} (h : faceOpenOf ps = some o) :
    o.face < 16 ∧ o.record.state = .loading := by
  unfold faceOpenOf at h
  simp only at h
  split at h
  · next hok =>
    cases h
    exact ⟨Nat.lt_succ_of_le hok.1, rfl⟩
  · cases h

theorem State.faceOpen_moves (ps : List Byte) (s : State) (ht : s.link.taking = .ignoring) : s.Moves c (s.faceOpen ps) := by
  unfold State.faceOpen
  split
  · exact State.refuse_moves _ _ s
  · next o ho =>
    obtain ⟨hface, hload⟩ := faceOpenOf_face ho
    split
    · exact State.faces_moves s _ (fun h => h.setFace (by simp [ht]) _ (by simp [hload])) rfl
        fun _ _ f => FaceStore.setFace_steady _ f hface (by simp [hload])
    · exact State.refuse_moves _ _ s

theorem faceOf_lt {ps : List Byte} {f : Nat} (h : faceOf ps = some f) : f < 16 := by
  unfold faceOf at h
  split at h
  · next hle =>
    cases h
    exact Nat.lt_succ_of_le hle
  · cases h

theorem State.faceSeal_moves (ps : List Byte) (s : State) (ht : s.link.taking = .ignoring) :
    s.Moves .faceSeal (s.faceSeal ps) := by
  unfold State.faceSeal
  split
  · exact State.refuse_moves _ _ s
  · split
    · exact State.faces_moves s _ (fun h => h.setFace (by simp [ht]) _ (by simp)) rfl fun hc => absurd rfl hc
    · exact State.refuse_moves _ _ s

theorem State.faceRetire_moves (ps : List Byte) (s : State) (ht : s.link.taking = .ignoring) :
    s.Moves c (s.faceRetire ps) := by
  unfold State.faceRetire
  split
  · exact State.refuse_moves _ _ s
  · next f hf =>
    split_ifs
    · exact State.refuse_moves _ _ s
    · exact State.refuse_moves _ _ s
    · exact .refl
    · exact State.faces_moves s _ (fun h => h.emptyFace (by simp [ht]) f) rfl
        fun _ _ k => FaceStore.emptyFace_steady _ f k (faceOf_lt hf)

theorem glyphOf_face {ps : List Byte} {g : Glyph} (h : glyphOf ps = some g) :
    g.face ≤ 15 ∧ g.blockCount = bitmapBlocks g.width g.height := by
  unfold glyphOf at h
  simp only at h
  split at h
  · next hok =>
    cases h
    exact ⟨hok.1, rfl⟩
  · cases h

/-- An accepted header changes the face store, and what is taken from now on. -/
theorem State.acceptGlyph_eq {s : State} (ht : s.link.taking = .ignoring) (g : Glyph) (run : Option Nat) :
    s.acceptGlyph g run = ({ s with faces := s.faces.accept g run } : State).setTaking
      (if bitmapBytes g.width g.height = 0 then .ignoring else .glyph) := by
  unfold State.acceptGlyph FaceStore.accept
  simp only
  split
  · simp only [State.onFaces, State.setTaking, State.onLink, ← ht]
  · rfl

theorem State.acceptGlyph_moves {s : State} (ht : s.link.taking = .ignoring) {g : Glyph} {run : Option Nat}
    (ha : s.faces.Accepts g run) : s.Moves c (s.acceptGlyph g run) := by
  rw [State.acceptGlyph_eq ht]
  refine .single (.faces s _ _ (fun h => h.accept ha) id (fun h => ?_) fun _ _ _ f => FaceStore.accept_steady ha f)
  split at h <;> cases h

theorem State.glyphPut_moves (ps : List Byte) (s : State) (ht : s.link.taking = .ignoring) : s.Moves c (s.glyphPut ps) := by
  unfold State.glyphPut
  split
  · exact State.refuse_moves _ _ s
  · next g hg =>
    obtain ⟨hface, hblocks⟩ := glyphOf_face hg
    split
    · exact State.refuse_moves _ _ s
    · next hload =>
      have hload : (s.faces.face g.face).state = .loading := not_not.1 hload
      split
      · exact State.refuse_moves _ _ s
      · next hroom =>
        have hroom : (s.faces.entry g.face g.code).isNone = true → s.faces.directory.length < 4096 := fun hnew => by
          simpa [hnew, Config.directoryEntries] using hroom
        split
        · next hz => exact State.acceptGlyph_moves ht ⟨hface, hload, hblocks, hroom, .inl ⟨hz, rfl⟩⟩
        · next hz =>
          split
          · exact State.refuse_moves _ _ s
          · next b hb =>
            exact State.acceptGlyph_moves ht ⟨hface, hload, hblocks, hroom,
              .inr ⟨Nat.one_le_iff_ne_zero.2 hz, by simp, hb⟩⟩

/-- A bitmap byte changes the face store, and ends the stream if it is the last. -/
theorem State.glyphByte_eq {s : State} (ht : s.link.taking = .glyph) (b : Byte) {r : Receiving} {g : Glyph}
    (hr : s.faces.receiving = some r) (hg : s.faces.entry r.face r.code = some g) : s.glyphByte b =
      if bitmapBytes g.width g.height ≤ r.got + 1 then
        ({ s with faces := s.faces.writeByte g r b none } : State).setTaking .ignoring
      else ({ s with faces := s.faces.writeByte g r b (some { r with got := r.got + 1 }) } : State).setTaking .glyph := by
  unfold State.glyphByte
  rw [hr]
  simp only [hg]
  split
  · rfl
  · simp only [State.setTaking, State.onLink, ← ht]
    rfl

theorem State.glyphByte_moves (b : Byte) (s : State) (ht : s.link.taking = .glyph) : s.Moves c (s.glyphByte b) := by
  cases hr : s.faces.receiving with
  | none =>
    unfold State.glyphByte
    rw [hr]
  | some r =>
    cases hg : s.faces.entry r.face r.code with
    | none =>
      unfold State.glyphByte
      rw [hr]
      simp only [hg]
      exact .refl
    | some g =>
      rw [State.glyphByte_eq ht b hr hg]
      split
      · exact .single (.faces s _ _ (fun h => h.writeByte_last r g b (by simp)) (Memory.write_wf _ _ _) (by simp)
          fun _ hs hp f => hs.writeByte_steady hp hr hg b none f)
      · next hmore =>
        refine .single (.faces s _ _ (fun h => ?_) (Memory.write_wf _ _ _) (by simp)
          fun _ hs hp f => hs.writeByte_steady hp hr hg b _ f)
        rw [ht] at h
        exact h.writeByte_more hr hg b (by omega)

/-! ### The line setter -/

theorem LineTable.anySet_eq_false {t : LineTable} (h : t.anySet = false) (slot : Nat) :
    (t.slot slot).record.isSet = false := by
  unfold LineTable.slot
  rcases Nat.lt_or_ge slot 210 with hlt | hge
  · rw [look_of_lt _ _ _ hlt]
    simp only [LineTable.anySet, List.any_eq_false] at h
    simpa using h _ (Vector.mem_toList_iff.2 (Vector.getElem_mem hlt))
  · rw [look_of_ge _ _ _ hge]
    rfl

/-- A change of the setter's text, job or result. -/
theorem State.setter_moves (s : State) (st : Setter) (ht : st.template = s.setter.template)
    (hjob : s.LinesSound → ∀ j, st.job = some j → j.draft = []) : s.Moves c { s with setter := st } := by
  refine .single (.page s st s.lines s.renderer (fun h => ?_) id fun h => ht ▸ h)
  obtain ⟨h1, h2, h3, h4, _⟩ := h
  have := hjob ⟨h1, h2, h3, h4, ‹_›⟩
  rw [← ht] at h1 h2 h3 h4
  exact ⟨h1, h2, h3, h4, this⟩

theorem State.templateSet_moves (ps : List Byte) (s : State) : s.Moves c (s.templateSet ps) := by
  unfold State.templateSet
  split
  · exact State.refuse_moves _ _ s
  · next hjob =>
    split
    · exact State.refuse_moves _ _ s
    · next hset =>
      split
      · exact State.refuse_moves _ _ s
      · next hwork =>
        split
        · next hlegal =>
          simp only [State.composing, Renderer.hasWork, Bool.or_eq_true, Bool.not_eq_true', not_or, Bool.not_eq_true,
            Option.isSome_eq_false_iff, Option.isNone_iff_eq_none] at hjob hset hwork
          obtain ⟨hlist, hrender⟩ := hwork
          have hlist : s.renderer.list = [] := by simpa using hlist
          have hunset : ∀ slot, ((LineTable.forget s.lines).slot slot).record.isSet = false := fun slot => by
            have hlook : (LineTable.forget s.lines).slot slot = { s.lines.slot slot with signature := none, length := none } :=
              look_mapAll (fun l : LineSlot => ({ l with signature := none, length := none } : LineSlot)) s.lines slot .blank
            rw [hlook]
            exact LineTable.anySet_eq_false hset slot
          refine .single (.page s _ _ s.renderer (fun _ => ⟨hlegal, fun slot h => ?_, ?_, ?_, ?_⟩) id fun _ => hlegal)
          · have h : ((LineTable.forget s.lines).slot slot).record.isSet = true := h
            rw [hunset slot] at h
            cases h
          · simp [hlist]
          · simp [hrender]
          · simp [State.onSetter, hjob]
        · exact State.refuse_moves _ _ s

theorem State.textLoad_moves (ps : List Byte) (s : State) (ht : s.link.taking = .ignoring) : s.Moves c (s.textLoad ps) := by
  unfold State.textLoad
  split
  · exact State.refuse_moves _ _ s
  · split
    · exact State.refuse_moves _ _ s
    · have first : s.Moves c (s.onSetter fun st => { st with text := [], base := field ps 0 4 }) :=
        State.setter_moves s _ rfl fun h => h.2.2.2.2
      exact first.trans (State.setTaking_moves _ (by simp [ht]) (by simp) (by simp))

theorem State.textFault_moves (s : State) (ht : s.link.taking ≠ .glyph) : s.Moves c s.textFault :=
  (State.refuse_moves _ _ s).trans (State.setTaking_moves _ ht (by simp) (by simp))

theorem State.textCode_moves (face left code : Nat) (s : State) (ht : s.link.taking ≠ .glyph) :
    s.Moves c (s.textCode face left code) := by
  unfold State.textCode
  split
  · exact State.textFault_moves s ht
  · split
    · exact (State.Moves.raise .refl _).trans (State.setTaking_moves _ ht (by simp) (by simp))
    · have first : s.Moves c (s.onSetter fun st => { st with text := st.text ++ [⟨code, face⟩] }) :=
        State.setter_moves s _ rfl fun h => h.2.2.2.2
      exact first.trans (State.setTaking_moves _ ht (by simp) (by simp))

theorem State.textByte_moves (b : Byte) (s : State) : s.Moves c (s.textByte b) := by
  unfold State.textByte
  split
  · next ht =>
    have hne : s.link.taking ≠ .glyph := by simp [ht]
    split
    · exact State.textFault_moves s hne
    · exact State.setTaking_moves s hne (by simp) (by simp)
  · next ht =>
    have hne : s.link.taking ≠ .glyph := by simp [ht]
    split
    · exact State.textFault_moves s hne
    · exact State.setTaking_moves s hne (by simp) (by simp)
  · next ht =>
    have hne : s.link.taking ≠ .glyph := by simp [ht]
    split
    · exact State.setTaking_moves s hne (by simp) (by simp)
    · exact State.textCode_moves _ _ _ s hne
  · exact .refl

theorem State.compose_moves (ps : List Byte) (s : State) : s.Moves c (s.compose ps) := by
  unfold State.compose
  split
  · exact State.refuse_moves _ _ s
  · split
    · exact State.refuse_moves _ _ s
    · split
      · exact State.setter_moves s _ rfl fun _ j hj => by cases hj; rfl
      · exact State.refuse_moves _ _ s

theorem State.composeCancel_moves (s : State) : s.Moves c s.composeCancel := by
  unfold State.composeCancel
  split
  · exact .refl
  · refine State.Moves.raise ?_ _
    exact State.setter_moves s _ rfl fun _ j hj => by cases hj

/-- A slot within an area's capacity has a line box (R11). -/
theorem Template.boxTop_of_capacity {t : Template} {a : Area} {slot : Nat}
    (hslot : a.holdsSlot slot = true) (hk : slot - a.firstSlot < t.capacity a) : (t.boxTop slot).isSome = true := by
  simp only [Area.holdsSlot, Bool.and_eq_true, decide_eq_true_eq] at hslot
  unfold Template.boxTop
  cases a with
  | head =>
    simp only [Area.firstSlot, Area.slotCount, Template.capacity] at hslot hk
    obtain rfl : slot = 0 := by omega
    split at hk
    · omega
    · next h => simp [h]
  | body =>
    simp only [Area.firstSlot, Area.slotCount, Template.capacity] at hslot hk
    rw [if_neg (by omega), if_pos (by omega), if_pos hk]
    rfl
  | foot =>
    simp only [Area.firstSlot, Area.slotCount, Template.capacity] at hslot hk
    obtain rfl : slot = 209 := by omega
    split at hk
    · omega
    · next h => simp [h]

/-- The slots of a line table after a draft has been swapped in. -/
theorem swapDraft_slot (a : Area) (draft : List LineRecord) (lines : LineTable) {slot : Nat} (h : slot < 210) :
    (swapDraft a draft lines).slot slot = if a.holdsSlot slot = true then
      { lines.slot slot with record := draft.getD (slot - a.firstSlot) .blank } else lines.slot slot :=
  look_mapPlaces (fun slot (l : LineSlot) => if a.holdsSlot slot then
    ({ l with record := draft.getD (slot - a.firstSlot) .blank } : LineSlot) else l) lines slot .blank _ h

theorem LineTable.isSet_lt {t : LineTable} {slot : Nat} (h : (t.slot slot).record.isSet = true) : slot < 210 := by
  by_contra hge
  rw [LineTable.slot, look_of_ge _ _ _ (by omega)] at h
  cases h

theorem State.recomputeOnPage_moves (s : State) : s.Moves c s.recomputeOnPage :=
  .single (.marks s _ fun h => h.withTable (h.table.onLines _) _ _)

/-- The slots that are listed besides those of the old list have line boxes. -/
theorem State.LinesSound.listed {s : State} (h : s.LinesSound) {test : Nat → Bool} {cause : Cause}
    (htest : ∀ slot, test slot = true → (s.setter.template.boxTop slot).isSome = true) :
    ∀ e ∈ listSlots test cause s.renderer.list, (s.setter.template.boxTop e.1).isSome = true := by
  intro e he
  rcases (lists_listSlots test cause s.renderer.list e.1).1 ⟨e.2, he⟩ with ⟨k, hk⟩ | ⟨_, hk⟩
  · exact h.2.2.1 (e.1, k) hk
  · exact htest _ hk

theorem State.composeEnds_moves (s : State) : s.Moves c s.composeEnds := by
  unfold State.composeEnds
  split
  · exact .refl
  · next j hj =>
    simp only
    refine State.Moves.raise (ReflTransGen.trans ?_ (State.recomputeOnPage_moves _)) _
    refine .single (.page s _ _ _ (fun h => ?_) (fun h => ListRises.listSlots (list := s.renderer.list) h
      (fun slot => j.area.holdsSlot slot && (s.setter.template.boxTop slot).isSome) .page) id)
    have hs : s.LinesSound := h
    obtain ⟨hlegal, hset, hlist, hrender, hdraft⟩ := h
    refine ⟨hlegal, fun slot hslot => ?_, ?_, hrender, nofun⟩
    · have hlt := LineTable.isSet_lt hslot
      rw [swapDraft_slot _ _ _ hlt] at hslot ⊢
      split at hslot
      · next harea =>
        rw [if_pos harea]
        simp only [hdraft j hj, ComposeJob.finish] at hslot ⊢
        have hsound := buildDraft_sound (fs := s.faces) (t := s.setter.template) (text := s.setter.text)
          (base := s.setter.base) (asked := j.align) (endsPara := j.endsPara)
          (s.setter.template.capacity j.area - ([] : List LineRecord).length) j.position j.nextPara
        generalize buildDraft _ _ _ _ _ _ _ _ _ _ = d at hsound hslot ⊢
        rw [List.getD_eq_getElem?_getD] at hslot ⊢
        cases hget : d.lines[slot - j.area.firstSlot]? with
        | none =>
          rw [hget] at hslot
          cases hslot
        | some r =>
          obtain ⟨hidx, hr⟩ := List.getElem?_eq_some_iff.1 hget
          obtain ⟨_, hrange, _, hplaces⟩ := hsound.line r (List.mem_of_getElem? hget)
          have := hsound.length
          exact ⟨Template.boxTop_of_capacity harea (by simpa using hidx.trans_le this), hrange, hplaces⟩
      · next harea =>
        rw [if_neg harea]
        exact hset slot hslot
    · exact State.LinesSound.listed hs fun slot h => (Bool.and_eq_true_iff.1 h).2

theorem State.clearAreas_moves (areas : List Area) (s : State) : s.Moves c (s.clearAreas areas) := by
  unfold State.clearAreas
  simp only
  split
  · refine ReflTransGen.trans ?_ (State.recomputeOnPage_moves _)
    refine .single (.page s s.setter _ _ (fun h => ?_) (fun h => ListRises.listSlots (list := s.renderer.list) h _ .page) id)
    have hs : s.LinesSound := h
    obtain ⟨hlegal, hset, hlist, hrender, hdraft⟩ := h
    refine ⟨hlegal, fun slot hslot => ?_, ?_, hrender, hdraft⟩
    · have hlt := LineTable.isSet_lt hslot
      unfold LineTable.slot at hslot ⊢
      rw [look_mapPlaces _ _ _ .blank _ hlt] at hslot ⊢
      split at hslot
      · cases hslot
      · next hclear =>
        rw [if_neg hclear]
        exact hset slot hslot
    · exact State.LinesSound.listed hs fun slot h => (hset slot (Bool.and_eq_true_iff.1 h).1).1
  · exact .refl

theorem State.pageClear_moves (ps : List Byte) (s : State) : s.Moves c (s.pageClear ps) := by
  unfold State.pageClear
  split
  · exact State.refuse_moves _ _ s
  · split
    · exact State.refuse_moves _ _ s
    · exact State.clearAreas_moves _ s

/-! ### The mark unit -/

theorem State.requestArrives_moves (cmd : Cmd) (r : Option MarkRequest) (hr : ∀ q, r = some q → q.InRange) (s : State) :
    s.Moves c (State.requestArrives cmd r s) := by
  unfold State.requestArrives
  split
  · exact State.refuse_moves _ _ s
  · next q =>
    split
    · exact State.refuse_moves _ _ s
    · next hroom =>
      exact .single (.marks s _ fun h => h.join (hr q rfl) (by simpa [Config.markQueueDepth] using hroom))

/-- What a request in service lists: SET lines, with cause MARK. -/
theorem serve_list (r : MarkRequest) (s : State) : (r.serve s).renderer.list = s.renderer.list ∨
    ∃ test : Nat → Bool, (∀ slot, test slot = true → (s.lines.slot slot).record.isSet = true) ∧
      (r.serve s).renderer.list = listSlots test .mark s.renderer.list := by
  have dirty : ∀ (table : List Mark) (spans : List (Nat × Nat)), ∃ test : Nat → Bool,
      (∀ slot, test slot = true → (s.lines.slot slot).record.isSet = true) ∧
      ((s.setTable table).dirty spans).renderer.list = listSlots test .mark s.renderer.list := fun table spans => by
    have hlist : ((s.setTable table).dirty spans).renderer.list =
        listSlots (fun slot => spans.any fun r => ((s.setTable table).lines.slot slot).meets r.1 r.2) .mark
          (s.setTable table).renderer.list := rfl
    refine ⟨_, fun slot h => ?_, hlist⟩
    obtain ⟨span, _, hmeets⟩ := List.any_eq_true.1 h
    exact ((LineSlot.meets_iff ..).1 hmeets).1
  match r with
  | .add id start stop style shade layer tag =>
    simp only [MarkRequest.serve, serveAdd]
    split
    · exact .inl rfl
    · split
      · exact .inl rfl
      · exact .inr (dirty _ _)
  | .range id start stop =>
    simp only [MarkRequest.serve, serveRange]
    split
    · exact .inl rfl
    · exact .inr (dirty _ _)
  | .restyle id style shade layer tag muted =>
    simp only [MarkRequest.serve, serveStyle]
    split
    · exact .inl rfl
    · exact .inr (dirty _ _)
  | .retire id =>
    simp only [MarkRequest.serve, serveRetire]
    split
    · exact .inl rfl
    · exact .inr (dirty _ _)
  | .sweep u v =>
    simp only [MarkRequest.serve, serveSweep, State.fillAnswer_eq]
    exact .inr (dirty _ _)
  | .clear => exact .inr (dirty _ _)
  | .get id =>
    simp only [MarkRequest.serve, serveGet, State.fillAnswer_eq]
    split <;> exact .inl rfl
  | .at x y =>
    simp only [MarkRequest.serve, serveAt, State.fillAnswer_eq]
    split <;> exact .inl rfl
  | .scan u v =>
    simp only [MarkRequest.serve, serveScan, State.fillChunk_eq]
    exact .inl trivial
  | .next =>
    simp only [MarkRequest.serve, serveNext]
    split
    · exact .inl rfl
    · simp only [State.fillChunk_eq]
      exact .inl trivial

theorem State.serviceEnds_moves (s : State) : s.Moves c s.serviceEnds := by
  unfold State.serviceEnds
  split
  · exact .refl
  · next r hr =>
    have hsound : s.marks.Sound → (r.serve s).nextService.marks.Sound := fun h =>
      nextService_sound (serve_sound h (h.serving r hr))
    have hlist := serve_list r s
    obtain ⟨refusal, e, m, l, heq⟩ := serve_touches r s
    rw [State.nextService_eq, heq] at hsound ⊢
    rw [heq] at hlist
    refine ReflTransGen.trans (State.onLink_moves s { s.link with lastRefusal := refusal } rfl rfl) ?_
    refine ReflTransGen.head (.panel _ _ (.events _ e)) ?_
    refine ReflTransGen.head (.page _ s.setter s.lines { s.renderer with list := l } (fun h => ?_) (fun h => ?_) id)
      (.single (.marks _ _ hsound))
    · obtain ⟨hlegal, hset, hold, hrender, hdraft⟩ := h
      refine ⟨hlegal, hset, ?_, hrender, hdraft⟩
      rcases hlist with hlist | ⟨test, htest, hlist⟩
      · rw [show l = s.renderer.list from hlist]
        exact hold
      · have hs : s.LinesSound := ⟨hlegal, hset, hold, hrender, hdraft⟩
        rw [show l = listSlots test .mark s.renderer.list from hlist]
        exact State.LinesSound.listed hs fun slot h => (hset slot (htest slot h)).1
    · rcases hlist with hlist | ⟨test, _, hlist⟩
      · rw [show l = s.renderer.list from hlist]
        exact h
      · rw [show l = listSlots test .mark s.renderer.list from hlist]
        exact ListRises.listSlots (list := s.renderer.list) h test .mark

end Sys2Proof.Machine
end

section
/-! PROOF. Writes of the target plane and renders, the supply and the scheduler's commands as chains of elementary changes,
and every row: a chain of elementary changes, or a reset. -/

namespace Sys2Proof.Machine

open Relation (ReflTransGen)

variable {c : Instr}

/-! ### Renders (R92, R93, R99, R103) -/

theorem State.endRender_eq (s : State) : s.endRender =
    if s.renderer.list.isEmpty = true then ({ s with renderer := { s.renderer with job := none } } : State).raise .renderIdle
    else { s with renderer := { s.renderer with job := none } } := rfl

/-- RENDER_IDLE is raised where the list is empty. -/
theorem State.raiseIdle_moves {s t : State} (h : s.Moves c t) (p : Prop) [Decidable p] :
    s.Moves c (if p then t.raise .renderIdle else t) := by
  split
  · exact State.Moves.raise h _
  · exact h

/-- The renderer takes a list that rises, of slots with line boxes, and a job. -/
theorem State.renderer_moves (s : State) (r : Renderer) (hlist : ListRises s.renderer.list → ListRises r.list)
    (hsub : ∀ e ∈ r.list, e ∈ s.renderer.list)
    (hjob : s.LinesSound → ∀ j, r.job = some j →
      (s.setter.template.boxTop j.slot).isSome = true ∧ j.written < 1248 * s.setter.template.pitch) :
    s.Moves c { s with renderer := r } := by
  refine .single (.page s s.setter s.lines r (fun h => ?_) hlist id)
  have hjob := hjob h
  obtain ⟨h1, h2, h3, _, h5⟩ := h
  exact ⟨h1, h2, fun e he => h3 e (hsub e he), hjob, h5⟩

theorem State.startRender_moves (s : State) : s.Moves c s.startRender := by
  unfold State.startRender
  split
  · next slot cause rest hj hl =>
    have rest_rises : ListRises s.renderer.list → ListRises rest := fun h => by
      rw [hl] at h
      exact ⟨(List.pairwise_cons.1 h.1).2, fun e he => h.2 e (List.mem_cons_of_mem _ he)⟩
    have rest_sub : ∀ e ∈ rest, e ∈ s.renderer.list := fun e he => hl ▸ List.mem_cons_of_mem _ he
    simp only
    split
    · rw [State.endRender_eq]
      exact State.raiseIdle_moves (State.renderer_moves s ⟨rest, none⟩ rest_rises rest_sub nofun) _
    · refine State.renderer_moves s ⟨rest, some _⟩ rest_rises rest_sub fun h j hj => ?_
      cases hj
      obtain ⟨hlegal, _, hbox, _⟩ := h
      have hlegal := hlegal
      simp only [Template.legal, Bool.and_eq_true, Bool.or_eq_true, decide_eq_true_eq, beq_iff_eq] at hlegal
      refine ⟨hbox (slot, cause) (hl ▸ List.mem_cons_self ..), ?_⟩
      show 0 < _
      omega
  · exact .refl

/-- The line table with a rendered signature and length. -/
theorem setRendered_record (t : LineTable) (slot : Nat) (sig : BitVec 16) (len : Nat) (k : Nat) :
    ((t.setRendered slot sig len).slot k).record = (t.slot k).record := by
  unfold LineTable.setRendered LineTable.slot
  by_cases hk : k = slot
  · subst hk
    rcases Nat.lt_or_ge k 210 with h | h
    · rw [look_put_self _ _ _ _ h]
    · rw [look_of_ge _ _ _ h, look_of_ge _ _ _ h]
  · rw [look_put_other _ _ _ _ _ hk]

/-- Render done, the renderer IDLE before its request is posted. -/
theorem State.renderDone_moves (j : RenderJob) (s : State) (k : Option RenderJob) :
    ({ s with renderer := { s.renderer with job := k } } : State).Moves c
      (State.renderDone j { s with renderer := { s.renderer with job := some j } }) := by
  let lines := s.lines.setRendered j.slot j.description.signature j.description.length
  let r : Request := ⟨s.setter.template.boxRect ((s.setter.template.boxTop j.slot).getD 0),
    s.sched.settings.autoMode j.cause, .render, false⟩
  let u : State := { s with lines := lines, renderer := { s.renderer with job := some j } }
  have hdone : State.renderDone j { s with renderer := { s.renderer with job := some j } } = (u.post r).endRender := rfl
  have idle : ({ s with renderer := { s.renderer with job := k } } : State).Moves c
      { u with renderer := { s.renderer with job := none } } := by
    refine .single (.page _ s.setter lines { s.renderer with job := none } (fun h => ?_) id id)
    obtain ⟨h1, h2, h3, _, h5⟩ := h
    refine ⟨h1, fun slot h => ?_, h3, nofun, h5⟩
    rw [setRendered_record] at h ⊢
    exact h2 slot h
  have posted : ({ u with renderer := { s.renderer with job := none } } : State).Moves c
      { u.post r with renderer := { s.renderer with job := none } } :=
    ((State.post_moves c r u fun h => Template.boxRect_onPanel h.2.2.2 _).withRenderer
      { s.renderer with job := none }).moves
  have hrend : (u.post r).renderer = { s.renderer with job := some j } := (State.post_panelOnly r u).renderer
  rw [hdone, State.endRender_eq, hrend]
  exact State.raiseIdle_moves (idle.trans posted) _

/-- The pixel of the box that the renderer writes next has its level, and the turn is the port's (R4, R99). -/
def State.rendererPixel (j : RenderJob) (s : State) : State :=
  let t := s.setter.template
  let top := (t.boxTop j.slot).getD 0
  let x := j.written % Config.columns
  let y := top + j.written / Config.columns
  { s with image := { s.image with
    target := s.image.target.setPixel x y (boxLevel s.faces t j.description top x y), turn := .port } }

/-- The job with one more pixel written. -/
def RenderJob.next (j : RenderJob) : RenderJob := { j with written := j.written + 1 }

theorem State.grantRenderer_eq (j : RenderJob) (s : State) : s.grantRenderer j =
    if s.setter.template.boxPixels ≤ j.written + 1 then
      State.renderDone j.next { s.rendererPixel j with renderer := { s.renderer with job := some j.next } }
    else { s.rendererPixel j with renderer := { s.renderer with job := some j.next } } := rfl

theorem State.rendererPixel_moves (hc : WritesPixels c) (j : RenderJob) (s : State) : s.Moves c (s.rendererPixel j) :=
  .single (.pixel s _ _ _ .port hc)

theorem State.grantRenderer_moves (hc : WritesPixels c) {j : RenderJob} {s : State} (hj : s.renderer.job = some j) :
    s.Moves c (s.grantRenderer j) := by
  rw [State.grantRenderer_eq]
  refine (State.rendererPixel_moves hc j s).trans ?_
  split
  · exact State.renderDone_moves j.next (s.rendererPixel j) s.renderer.job
  · next hmore =>
    refine State.renderer_moves (s.rendererPixel j) { s.renderer with job := some j.next } id (fun _ h => h)
      fun h k hk => ?_
    cases hk
    simp only [Template.boxPixels, Config.columns, Nat.not_le] at hmore
    exact ⟨(h.2.2.2.1 j hj).1, hmore⟩

/-- A grant of the renderer leaves the link and the port. -/
theorem State.grantRenderer_rest (j : RenderJob) (s : State) :
    (s.grantRenderer j).link = s.link ∧ (s.grantRenderer j).port = s.port := by
  rw [State.grantRenderer_eq]
  split
  · have hdone : ∀ (k : RenderJob) (u : State), (State.renderDone k u).link = u.link ∧ (State.renderDone k u).port = u.port :=
      fun k u => by
        unfold State.renderDone
        simp only [State.endRender_eq]
        have h := State.post_panelOnly
          ⟨u.setter.template.boxRect ((u.setter.template.boxTop k.slot).getD 0), u.sched.settings.autoMode k.cause, .render, false⟩
          { u with lines := u.lines.setRendered k.slot k.description.signature k.description.length }
        split
        · exact ⟨h.link, h.port⟩
        · exact ⟨h.link, h.port⟩
    exact hdone _ _
  · exact ⟨rfl, rfl⟩

/-! ### The image port (R106 to R112) -/

/-- The pixel at the write position has a level, and the turn is the renderer's (R4, R107). -/
def State.portWrite (v : Level) (s : State) : State :=
  let xy := s.port.pixel s.port.position
  { s with image := { s.image with target := s.image.target.setPixel xy.1 xy.2 v, turn := .renderer } }

theorem State.portPixel_eq (v : Level) (s : State) : s.portPixel v =
    if s.port.position < s.port.size then
      { s.portWrite v with port := { s.port with position := s.port.position + 1 } }
    else s := rfl

theorem State.portWrite_moves (hc : WritesPixels c) (v : Level) (s : State) : s.Moves c (s.portWrite v) :=
  .single (.pixel s _ _ _ .renderer hc)

theorem State.grantFill_moves (hc : WritesPixels c) {v : Level} {left : Nat} {s : State}
    (hf : s.port.state = .filling v left) : s.Moves c (s.grantFill v left) := by
  have after : ∀ p : ImagePort, p.window = s.port.window → s.port.position < s.port.size →
      p.position = s.port.position + 1 → ((p.state = .idle) ∨ (p.state = .filling v (left - 1) ∧ 1 < left)) →
      s.PortSound → State.PortSound { s with port := p } := by
    intro p hw hlt hp hst hs
    have hsize : p.size = s.port.size := by simp only [ImagePort.size, hw]
    obtain ⟨_, hfill⟩ := hs
    obtain ⟨h1, h2, h3⟩ := hfill v left hf
    refine ⟨?_, fun w k hk => ?_⟩
    · show p.position ≤ p.size
      omega
    · have hk : p.state = .filling w k := hk
      rcases hst with hst | ⟨hst, hlt⟩
      · rw [hst] at hk
        cases hk
      · rw [hst] at hk
        cases hk
        refine ⟨by omega, ?_, h3⟩
        show p.position + (left - 1) ≤ p.size
        omega
  unfold State.grantFill
  rw [State.portPixel_eq]
  by_cases hlt : s.port.position < s.port.size
  · simp only [if_pos hlt]
    refine (State.portWrite_moves hc v s).trans ?_
    split
    · exact ReflTransGen.head (.port (s.portWrite v) { s.port with position := s.port.position + 1, state := .idle }
        (fun h => after _ rfl hlt rfl (.inl rfl) h) id) (State.postWindow_moves _)
    · next hmore =>
      exact .single (.port (s.portWrite v)
        { s.port with position := s.port.position + 1, state := .filling v (left - 1) }
        (fun h => after _ rfl hlt rfl (.inr ⟨rfl, by omega⟩) h) id)
  · have none_left : ¬ s.PortSound := fun h => by
      have := h.2 v left hf
      omega
    simp only [if_neg hlt]
    split
    · exact State.endPortWork_moves s
    · exact .single (.port s _ (fun h => absurd h none_left) id)

theorem State.grantOne_moves (hc : WritesPixels c) (s : State) : s.Moves c s.grantOne := by
  unfold State.grantOne
  split
  · next j v left hj hf =>
    split
    · exact State.grantRenderer_moves hc hj
    · exact State.grantFill_moves hc hf
  · next j hj _ => exact State.grantRenderer_moves hc hj
  · next v left _ hf => exact State.grantFill_moves hc hf
  · exact .refl

theorem grantUntilRendered_moves (hc : WritesPixels c) (n : Nat) (s : State) : s.Moves c (grantUntilRendered n s) := by
  induction n generalizing s with
  | zero => exact .refl
  | succ n ih =>
    rw [grantUntilRendered]
    split
    · exact .refl
    · exact (State.grantOne_moves hc s).trans (ih _)

theorem grantUntilFilled_moves (hc : WritesPixels c) (n : Nat) (s : State) : s.Moves c (grantUntilFilled n s) := by
  induction n generalizing s with
  | zero => exact .refl
  | succ n ih =>
    rw [grantUntilFilled]
    split
    · exact (State.grantOne_moves hc s).trans (ih _)
    · exact .refl

theorem State.portPixel_moves (hc : WritesPixels c) (v : Level) {s : State} (ht : s.link.taking = .image) :
    s.Moves c (s.portPixel v) := by
  rw [State.portPixel_eq]
  split
  · next hlt =>
    refine (State.portWrite_moves hc v s).trans (.single (.port (s.portWrite v)
      { s.port with position := s.port.position + 1 } (fun h => ⟨hlt, fun w k hk => ?_⟩) id))
    exact absurd ht (h.2 w k hk).2.2
  · exact .refl

theorem State.portPixel_link (v : Level) (s : State) : (s.portPixel v).link = s.link := by
  unfold State.portPixel
  split <;> rfl

theorem State.streamPixel_link (v : Level) (s : State) : (s.streamPixel v).link = s.link := by
  unfold State.streamPixel
  split
  · split
    · split
      · rw [State.portPixel_link, (State.grantRenderer_rest _ _).1]
      · exact State.portPixel_link v s
    · exact State.portPixel_link v s
  · rfl

theorem State.streamPixel_moves (hc : WritesPixels c) (v : Level) {s : State} (ht : s.link.taking = .image) :
    s.Moves c (s.streamPixel v) := by
  unfold State.streamPixel
  split
  · split
    · next j hj =>
      split
      · refine (State.grantRenderer_moves hc hj).trans (State.portPixel_moves hc v ?_)
        rw [(State.grantRenderer_rest _ _).1]
        exact ht
      · exact State.portPixel_moves hc v ht
    · exact State.portPixel_moves hc v ht
  · exact .refl

theorem State.imageByte_moves (hc : WritesPixels c) (b : Byte) (s : State) (ht : s.link.taking = .image) :
    s.Moves c (s.imageByte b) :=
  (State.streamPixel_moves hc _ ht).trans (State.streamPixel_moves hc _ (by rw [State.streamPixel_link]; exact ht))

theorem ImagePort.not_filling {p : ImagePort} (h : ¬ p.isFilling = true) (v : Level) (left : Nat) :
    p.state ≠ .filling v left := by
  intro hf
  simp [ImagePort.isFilling, hf] at h

theorem ImagePort.isFilling_iff (p : ImagePort) : p.isFilling = true ↔ ∃ v left, p.state = .filling v left := by
  unfold ImagePort.isFilling
  cases p.state <;> simp

/-- The window of IMAGE WINDOW is a rectangle of the panel (R108). -/
theorem imageWindowOf_onPanel {ps : List Byte} {w : Rect × Option Mode} (h : imageWindowOf ps = some w) :
    w.1.onPanel := by
  unfold imageWindowOf at h
  obtain ⟨m, _, h⟩ := Option.bind_eq_some_iff.1 h
  split at h
  · next hok =>
    cases h
    simp only [Rect.onPanel, clampX, clampY]
    omega
  · cases h

theorem State.imageWindow_moves (ps : List Byte) (s : State) : s.Moves c (s.imageWindow ps) := by
  unfold State.imageWindow
  split
  · exact State.refuse_moves _ _ s
  · next hf =>
    split
    · exact State.refuse_moves _ _ s
    · next w hw =>
      exact .single (.port s _ (fun _ => ⟨Nat.zero_le _, fun v left h => absurd h (ImagePort.not_filling hf v left)⟩)
        fun _ => imageWindowOf_onPanel hw)

theorem State.imageWrite_moves (s : State) (ht : s.link.taking = .ignoring) : s.Moves c s.imageWrite := by
  unfold State.imageWrite
  split
  · exact State.refuse_moves _ _ s
  · refine ReflTransGen.head (.port s { s.port with state := .writing } (fun h => ⟨h.1, nofun⟩) id)
      (.single (.taking _ .image ?_ (by simp) fun _ => rfl))
    simp [ht]

theorem State.imageFill_moves (ps : List Byte) (s : State) (ht : s.link.taking = .ignoring) :
    s.Moves c (s.imageFill ps) := by
  unfold State.imageFill
  split
  · exact State.refuse_moves _ _ s
  · split
    · exact State.refuse_moves _ _ s
    · next level count _ =>
      simp only
      split
      · exact State.endPortWork_moves s
      · next hne =>
        refine .single (.port s _ (fun h => ⟨h.1, fun v left hl => ?_⟩) id)
        cases hl
        refine ⟨Nat.one_le_iff_ne_zero.2 hne, ?_, by simp [ht]⟩
        have := h.1
        show s.port.position + min count (s.port.size - s.port.position) ≤ s.port.size
        omega

/-! ### Power and supply (chapter 10) -/

theorem State.supply_moves (s : State) (p : Supply) (hstate : p.state = s.supply.state) (hidle : p.idle = s.supply.idle) :
    s.Moves c { s with supply := p } :=
  .single (.panel _ _ (.supply s p (fun h => .inl (hstate ▸ h)) (.inr (.inl hidle))))

theorem State.enterSleep_moves (s : State) : s.Moves .sleep s.enterSleep := by
  unfold State.enterSleep
  split
  · next hq =>
    simp only [State.quietForSleep, Bool.and_eq_true, Bool.not_eq_true'] at hq
    obtain ⟨_, hdriving⟩ := hq
    refine ReflTransGen.head (.power s { s.power with asleep := true } fun _ => .inr rfl) ?_
    refine ReflTransGen.head (.panel _ _ (.supply _
      { s.supply with state := .off, powerUp := none, filter := none, idle := none } (fun _ => .inr (.inl hdriving))
      (.inl rfl))) ?_
    refine ReflTransGen.head (.panel _ _ (.settle _ none (.inl rfl))) ?_
    exact .single (.panel _ _ (.drive _ { s.drive with age := s.drive.age.pause } rfl rfl))
  · exact State.refuse_moves _ _ s

theorem State.beginWake_moves (s : State) : s.Moves c s.beginWake := by
  unfold State.beginWake
  split
  · exact .single (.power s _ .inl)
  · exact .refl

theorem State.wakeEnds_moves (s : State) : s.Moves c s.wakeEnds := by
  unfold State.wakeEnds
  split
  · exact (State.onDrive_moves s { s.drive with age := s.drive.age.resume } rfl rfl).tail (.power _ _ nofun)
  · exact .refl

theorem State.supplyClear_moves (s : State) : s.Moves c s.supplyClear := by
  unfold State.supplyClear
  split
  · next h =>
    refine ReflTransGen.head (.panel _ _ (.supply s { s.supply with state := .off } (fun _ => .inl (by simp [h]))
      (.inr (.inl rfl)))) (State.scan_moves' _)
  · exact .refl

theorem State.pgoodRises_moves (s : State) : s.Moves c s.pgoodRises := by
  have level : s.Moves c { s with supply := { s.supply with pgood := true } } := State.supply_moves s _ rfl rfl
  unfold State.pgoodRises
  split
  · exact .refl
  · simp only
    split
    · split
      · exact level.trans (State.supplyOn_moves c _).moves
      · exact State.supply_moves s _ rfl rfl
    · exact State.supply_moves s _ rfl rfl
    · exact level
    · exact level

theorem State.pgoodFalls_moves (s : State) : s.Moves .pgoodFall s.pgoodFalls := by
  have level : s.Moves .pgoodFall { s with supply := { s.supply with pgood := false } } := State.supply_moves s _ rfl rfl
  unfold State.pgoodFalls
  split
  · exact .refl
  · simp only
    split
    · split
      · exact level.trans (State.enterFault_moves (.inl rfl) _).moves
      · exact State.supply_moves s _ rfl rfl
    · exact State.supply_moves s _ rfl rfl
    · exact level
    · exact level

theorem State.filterExpires_moves (s : State) : s.Moves .filterTimerExpiry s.filterExpires := by
  unfold State.filterExpires
  split
  · exact .refl
  · split
    · exact (State.supplyOn_moves .filterTimerExpiry s).moves
    · exact (State.enterFault_moves (.inr (.inl rfl)) s).moves
    · exact .refl
    · exact .refl

theorem State.powerUpExpires_moves (s : State) : s.Moves .powerUpTimerExpiry s.powerUpExpires := by
  unfold State.powerUpExpires
  split
  · exact (State.enterFault_moves (.inr (.inr rfl)) s).moves
  · exact .refl

theorem State.idleExpires_moves (s : State) : s.Moves c s.idleExpires := by
  unfold State.idleExpires
  split
  · next h =>
    exact .single (.panel _ _ (.supply s _ (fun _ => .inr (.inr (Option.isSome_iff_ne_none.1 h.1))) (.inl rfl)))
  · exact .refl

/-! ### The scheduler's commands (8.7, 8.8) -/

theorem refreshOf_onPanel {ps : List Byte} {r : Request} (h : refreshOf ps = some r) : r.rect.onPanel := by
  unfold refreshOf at h
  obtain ⟨m, _, h⟩ := Option.bind_eq_some_iff.1 h
  split at h
  · next hok =>
    cases h
    simp only [Rect.onPanel, clampX, clampY]
    omega
  · cases h

theorem State.refresh_moves (ps : List Byte) (s : State) : s.Moves c (s.refresh ps) := by
  unfold State.refresh
  split
  · exact State.refuse_moves _ _ s
  · next r hr => exact State.post_moves' r s fun _ => refreshOf_onPanel hr

theorem State.setDisplay_moves (inverted : Bool) (s : State) : s.Moves c (State.setDisplay inverted s) := by
  unfold State.setDisplay
  split
  · exact .refl
  · exact ReflTransGen.head (.panel _ _ (.display s inverted s.sched.blank s.sched.settings))
      (State.post_moves' _ _ fun _ => Rect.panel_onPanel)

theorem State.blankOn_moves (s : State) : s.Moves c s.blankOn := by
  unfold State.blankOn
  split
  · exact .refl
  · let q := s.sched.queue.filter fun (e : Request) => !(e.origin == Origin.render || e.origin == Origin.window)
    refine ReflTransGen.head (.panel _ _ (.display s s.sched.inverted true s.sched.settings)) ?_
    refine ReflTransGen.head (.panel _ _ (.queue _ q ?_ (fun h => (List.length_filter_le _ _).trans h)
      fun h e he => h.1 e (List.mem_filter.1 he).1)) (State.post_moves' _ _ fun _ => Rect.panel_onPanel)
    by_cases hq : s.sched.queue = []
    · exact .inr (.inl (by simp [q, hq]))
    · exact .inl hq

theorem State.blankOff_moves (s : State) : s.Moves c s.blankOff := by
  unfold State.blankOff
  split
  · exact ReflTransGen.head (.panel _ _ (.display s s.sched.inverted false s.sched.settings))
      (State.post_moves' _ _ fun _ => Rect.panel_onPanel)
  · exact .refl

theorem State.schedSet_moves (ps : List Byte) (s : State) : s.Moves c (s.schedSet ps) := by
  unfold State.schedSet
  split
  · exact State.refuse_moves _ _ s
  · exact .single (.panel _ _ (.display s s.sched.inverted s.sched.blank _))

theorem State.settleTimerExpires_moves (s : State) : s.Moves c s.settleTimerExpires := by
  unfold State.settleTimerExpires
  split
  · next h => exact (s.settleExpires_moves c (.inr (Option.isSome_iff_ne_none.1 h))).moves
  · exact .refl

theorem State.frameExpires_moves (s : State) : s.Moves .frameEnd s.frameExpires := by
  unfold State.frameExpires
  split
  · exact s.frameEnds_moves.moves
  · exact .refl

/-! ### Every row -/

/-- What a row can come to: a chain of elementary changes, or a reset. -/
inductive State.Reaches (c : Instr) (s : State) : State → Prop
  | moves (t : State) (h : s.Moves c t) : Reaches c s t
  | powerOn (hc : c = .powerOn) : Reaches c s s.powerOn
  | pinReset : Reaches c s s.pinReset
  | resetCommand (u : State) (h : s.Moves c u) : Reaches c s (State.resetBlocks s u)

theorem State.resetCommand_reaches (s : State) : s.Reaches c s.resetCommand := by
  unfold State.resetCommand
  split
  · exact .moves _ (State.onLink_moves s _ rfl rfl)
  · have empty : s.Moves c (s.onLink fun l => { l with fifo := [] }) :=
      .single (.link s _ rfl fun _ => Nat.zero_le _)
    exact .resetCommand ((s.onLink fun l => { l with fifo := [] }).endTaking.setTaking .ignoring)
      (empty.trans (State.endTaking_moves (s.onLink fun l => { l with fifo := [] }) (by simp) (by simp)))

theorem State.clockByte_reaches (kind : ByteKind) (b : Byte) (s : State) : s.Reaches c (s.clockByte kind b) := by
  unfold State.clockByte
  split
  · exact .moves _ (State.onLink_moves s _ rfl rfl)
  · split
    · split
      · exact State.resetCommand_reaches s
      · exact .moves _ (State.clockCommand_moves b s)
    · exact .moves _ (State.clockParameter_moves b s)

theorem markRequests_inRange {ps : List Byte} {q : MarkRequest} :
    (markRangeOf ps = some q → q.InRange) ∧ (markRetireOf ps = some q → q.InRange) ∧
      (markSweepOf ps = some q → q.InRange) ∧ (markGetOf ps = some q → q.InRange) ∧
      (markScanOf ps = some q → q.InRange) :=
  ⟨fun h => legalRequest_inRange h id, fun h => legalRequest_inRange h id, fun h => legalRequest_inRange h id,
    fun h => legalRequest_inRange h id, fun h => legalRequest_inRange h id⟩

/-- Every row answers a next state, which a chain of elementary changes or a reset leads to. -/
theorem exec_reaches (c : Instr) (s : State) : ∃ t, exec c s = .next t ∧ s.Reaches c t := by
  have byCommand : ∀ (row : Instr) (cmd : Cmd) (act : State → State),
      (∀ u : State, u.link.taking = .ignoring → u.Moves row (act u)) → s.Reaches row (s.atCommand cmd act) :=
    fun _ _ _ h => .moves _ (State.atCommand_moves h s)
  have byParam : ∀ (row : Instr) (cmd : Cmd) (act : List Byte → State → State),
      (∀ (ps : List Byte) (u : State), u.link.taking = .ignoring → u.Moves row (act ps u)) →
      s.Reaches row (s.atLastParam cmd act) := fun _ _ _ h => .moves _ (State.atLastParam_moves h s)
  have byStream : ∀ (row : Instr) (stream : Taking → Bool) (act : Byte → State → State),
      (∀ (b : Byte) (u : State), stream u.link.taking = true → u.Moves row (act b u)) →
      s.Reaches row (s.atStreamByte stream act) := fun _ _ _ h => .moves _ (State.atStreamByte_moves h s)
  have request : ∀ (row : Instr) (cmd : Cmd) (f : List Byte → Option MarkRequest),
      (∀ ps q, f ps = some q → q.InRange) →
      s.Reaches row (s.atLastParam cmd fun ps => State.requestArrives cmd (f ps)) := fun row cmd f h =>
    byParam row cmd _ fun ps u _ => State.requestArrives_moves cmd (f ps) (h ps) u
  cases c with
  | powerOn => exact ⟨_, rfl, .powerOn rfl⟩
  | resetPin => exact ⟨_, rfl, .pinReset⟩
  | startUpDone => exact ⟨_, rfl, .moves _ (.single (.power s _ .inl))⟩
  | byteClockedIn kind b => exact ⟨_, rfl, State.clockByte_reaches kind b s⟩
  | csRising phase =>
    cases phase with
    | edge => exact ⟨_, rfl, .moves _ (State.csEdge_moves s)⟩
    | arrival => exact ⟨_, rfl, .moves _ (State.csArrives_moves s)⟩
  | droppedCommandPlace => exact ⟨_, rfl, .moves _ (State.droppedArrives_moves s)⟩
  | unknownCommand => exact ⟨_, rfl, .moves _ (State.unknownArrives_moves s)⟩
  | statusRead => exact ⟨_, rfl, byCommand _ _ _ fun u _ => State.giveReply_moves _ u⟩
  | idRead => exact ⟨_, rfl, byCommand _ _ _ fun u _ => State.giveReply_moves _ u⟩
  | eventAck => exact ⟨_, rfl, byParam _ _ _ fun ps u _ => .single (.panel _ _ (.events u _))⟩
  | routeSet => exact ⟨_, rfl, byParam _ _ _ fun ps u _ => .single (.panel _ _ (.events u _))⟩
  | sleep => exact ⟨_, rfl, byCommand _ _ _ fun u _ => State.enterSleep_moves u⟩
  | wake => exact ⟨_, rfl, byCommand _ _ _ fun u _ => State.beginWake_moves u⟩
  | wakeDone => exact ⟨_, rfl, .moves _ (State.wakeEnds_moves s)⟩
  | reset => exact ⟨_, rfl, State.resetCommand_reaches s⟩
  | templateSet => exact ⟨_, rfl, byParam _ _ _ fun ps u _ => State.templateSet_moves ps u⟩
  | textLoad => exact ⟨_, rfl, byParam _ _ _ fun ps u h => State.textLoad_moves ps u h⟩
  | textLoadByte => exact ⟨_, rfl, byStream _ _ _ fun b u _ => State.textByte_moves b u⟩
  | compose => exact ⟨_, rfl, byParam _ _ _ fun ps u _ => State.compose_moves ps u⟩
  | composeDone => exact ⟨_, rfl, .moves _ (State.composeEnds_moves s)⟩
  | composeCancel => exact ⟨_, rfl, byCommand _ _ _ fun u _ => State.composeCancel_moves u⟩
  | composeResult => exact ⟨_, rfl, byCommand _ _ _ fun u _ => State.giveReply_moves _ u⟩
  | lineRead => exact ⟨_, rfl, byParam _ _ _ fun ps u _ => State.lineRead_moves ps u⟩
  | pageClear => exact ⟨_, rfl, byParam _ _ _ fun ps u _ => State.pageClear_moves ps u⟩
  | faceOpen => exact ⟨_, rfl, byParam _ _ _ fun ps u h => State.faceOpen_moves ps u h⟩
  | glyphPut => exact ⟨_, rfl, byParam _ _ _ fun ps u h => State.glyphPut_moves ps u h⟩
  | glyphBitmapByte =>
    refine ⟨_, rfl, byStream _ _ _ fun b u h => State.glyphByte_moves b u ?_⟩
    cases ht : u.link.taking <;> simp_all [Taking.isGlyph]
  | faceSeal => exact ⟨_, rfl, byParam _ _ _ fun ps u h => State.faceSeal_moves ps u h⟩
  | faceRetire => exact ⟨_, rfl, byParam _ _ _ fun ps u h => State.faceRetire_moves ps u h⟩
  | faceInfo => exact ⟨_, rfl, byParam _ _ _ fun ps u _ => State.faceInfo_moves ps u⟩
  | markAdd => exact ⟨_, rfl, request _ _ _ fun ps q => markAddOf_inRange⟩
  | markRange => exact ⟨_, rfl, request _ _ _ fun ps q => markRequests_inRange.1⟩
  | markStyle => exact ⟨_, rfl, request _ _ _ fun ps q => markStyleOf_inRange⟩
  | markRetire => exact ⟨_, rfl, request _ _ _ fun ps q => markRequests_inRange.2.1⟩
  | markSweep => exact ⟨_, rfl, request _ _ _ fun ps q => markRequests_inRange.2.2.1⟩
  | markClear => exact ⟨_, rfl, byCommand _ _ _ fun u _ => State.requestArrives_moves _ _ (fun q h => by cases h; rfl) u⟩
  | markGet => exact ⟨_, rfl, request _ _ _ fun ps q => markRequests_inRange.2.2.2.1⟩
  | markAt => exact ⟨_, rfl, request _ _ _ fun ps q => markAtOf_inRange⟩
  | markScan => exact ⟨_, rfl, request _ _ _ fun ps q => markRequests_inRange.2.2.2.2⟩
  | scanNext => exact ⟨_, rfl, byCommand _ _ _ fun u _ => State.requestArrives_moves _ _ (fun q h => by cases h; rfl) u⟩
  | serviceDone => exact ⟨_, rfl, .moves _ (State.serviceEnds_moves s)⟩
  | answerRead => exact ⟨_, rfl, byCommand _ _ _ fun u _ => State.answerRead_moves u⟩
  | renderStart => exact ⟨_, rfl, .moves _ (State.startRender_moves s)⟩
  | renderDone => exact ⟨_, rfl, .moves _ (grantUntilRendered_moves (.inr (.inl rfl)) _ s)⟩
  | imageWindow => exact ⟨_, rfl, byParam _ _ _ fun ps u _ => State.imageWindow_moves ps u⟩
  | imageWrite => exact ⟨_, rfl, byCommand _ _ _ fun u h => State.imageWrite_moves u h⟩
  | imageWriteByte =>
    refine ⟨_, rfl, byStream _ _ _ fun b u h => State.imageByte_moves (.inr (.inr (.inl rfl))) b u ?_⟩
    cases ht : u.link.taking <;> simp_all [Taking.isImage]
  | imageFill => exact ⟨_, rfl, byParam _ _ _ fun ps u h => State.imageFill_moves ps u h⟩
  | fillComplete => exact ⟨_, rfl, .moves _ (grantUntilFilled_moves (.inr (.inr (.inr rfl))) _ s)⟩
  | imageRead => exact ⟨_, rfl, byParam _ _ _ fun ps u _ => State.imageRead_moves ps u⟩
  | refresh => exact ⟨_, rfl, byParam _ _ _ fun ps u _ => State.refresh_moves ps u⟩
  | displayNormal => exact ⟨_, rfl, byCommand _ _ _ fun u _ => State.setDisplay_moves _ u⟩
  | displayInvert => exact ⟨_, rfl, byCommand _ _ _ fun u _ => State.setDisplay_moves _ u⟩
  | blankOn => exact ⟨_, rfl, byCommand _ _ _ fun u _ => State.blankOn_moves u⟩
  | blankOff => exact ⟨_, rfl, byCommand _ _ _ fun u _ => State.blankOff_moves u⟩
  | schedSet => exact ⟨_, rfl, byParam _ _ _ fun ps u _ => State.schedSet_moves ps u⟩
  | frameEnd => exact ⟨_, rfl, .moves _ (State.frameExpires_moves s)⟩
  | settleTimerExpiry => exact ⟨_, rfl, .moves _ (State.settleTimerExpires_moves s)⟩
  | waveLoad => exact ⟨_, rfl, byParam _ _ _ fun ps u h => State.waveLoad_moves ps u h⟩
  | waveFrameByte => exact ⟨_, rfl, byStream _ _ _ fun b u _ => State.waveByte_moves b u⟩
  | bandsSet => exact ⟨_, rfl, byParam _ _ _ fun ps u _ => State.bandsSet_moves ps u⟩
  | tempSet => exact ⟨_, rfl, byParam _ _ _ fun ps u _ => State.tempSet_moves ps u⟩
  | ageTimerExpiry => exact ⟨_, rfl, .moves _ (State.ageExpires_moves s)⟩
  | driveSet => exact ⟨_, rfl, byParam _ _ _ fun ps u _ => State.onDrive_moves u _ rfl rfl⟩
  | supplySet => exact ⟨_, rfl, byParam _ _ _ fun ps u _ => State.supply_moves u _ rfl rfl⟩
  | supplyClear => exact ⟨_, rfl, byCommand _ _ _ fun u _ => State.supplyClear_moves u⟩
  | pgoodRise => exact ⟨_, rfl, .moves _ (State.pgoodRises_moves s)⟩
  | pgoodFall => exact ⟨_, rfl, .moves _ (State.pgoodFalls_moves s)⟩
  | filterTimerExpiry => exact ⟨_, rfl, .moves _ (State.filterExpires_moves s)⟩
  | powerUpTimerExpiry => exact ⟨_, rfl, .moves _ (State.powerUpExpires_moves s)⟩
  | idleTimerExpiry => exact ⟨_, rfl, .moves _ (State.idleExpires_moves s)⟩
  | fifoByteArrival => exact ⟨_, rfl, .moves _ (State.byteArrives_moves s)⟩
  | arbiterWriteGrant => exact ⟨_, rfl, .moves _ (State.grantOne_moves (.inl rfl) s)⟩

theorem exec_reaches_of {c : Instr} {s t : State} (h : exec c s = .next t) : s.Reaches c t := by
  obtain ⟨u, hu, hr⟩ := exec_reaches c s
  rw [h] at hu
  cases hu
  exact hr

end Sys2Proof.Machine
end

section
/-! PROOF. The laws of a safe state that every elementary change and every reset keeps, and the step lemmas that follow. -/

namespace Sys2Proof.Machine

open Relation (ReflTransGen)

/-! ### A law that is kept -/

/-- A law that every elementary change and every reset keeps, and that does not see the waiting commands. -/
structure KeptLaw (P : State → Prop) : Prop where
  move : ∀ (c : Instr) (s t : State), s.Move c t → P s → P t
  powerOn : ∀ s : State, P s.powerOn
  pinReset : ∀ s : State, P s → P s.pinReset
  resetCommand : ∀ s u : State, P s → P u → P (State.resetBlocks s u)
  pending : ∀ (s : State) (rest : List Instr), P s → P { s with pending := rest }

theorem KeptLaw.moves {P : State → Prop} (h : KeptLaw P) {c : Instr} {s t : State} (hm : s.Moves c t) (hs : P s) : P t := by
  induction hm with
  | refl => exact hs
  | tail _ hm ih => exact h.move c _ _ hm ih

theorem KeptLaw.exec {P : State → Prop} (h : KeptLaw P) {c : Instr} {s t : State} (hx : Machine.exec c s = .next t)
    (hs : P s) : P t := by
  cases exec_reaches_of hx with
  | moves _ hm => exact h.moves hm hs
  | powerOn => exact h.powerOn s
  | pinReset => exact h.pinReset s hs
  | resetCommand u hm => exact h.resetCommand s u hs (h.moves hm hs)

/-- A step leaves the state, or runs the front command with the queue's rest. -/
theorem step_cases {s t : State} (h : step s = .next t) :
    t = s ∨ ∃ (c : Instr) (rest : List Instr), exec c { s with pending := rest } = .next t := by
  unfold step at h
  split at h
  · cases h
    exact .inl rfl
  · next c rest _ => exact .inr ⟨c, rest, h⟩

theorem KeptLaw.step {P : State → Prop} (h : KeptLaw P) {s t : State} (hx : Machine.step s = .next t) (hs : P s) : P t := by
  rcases step_cases hx with rfl | ⟨c, rest, hx⟩
  · exact hs
  · exact h.exec hx (h.pending s rest hs)

/-! ### Slots and scores after a reset -/

theorem Scheduler.initial_slot (i : Nat) : Scheduler.initial.slot i = none := look_replicate ..

theorem Scheduler.afterResetCommand_slot (q : Scheduler) (i : Nat) : q.afterResetCommand.slot i = none := look_replicate ..

theorem LineTable.initial_slot (i : Nat) : LineTable.initial.slot i = .blank := look_replicate ..

theorem Template.initial_legal : Template.initial.legal = true := by decide

/-! ### The laws -/

theorem fifoBounded_kept : KeptLaw State.FifoBounded where
  move c s t hm hs := by
    cases hm with
    | panel _ h =>
      unfold State.FifoBounded
      rw [h.panelOnly.link]
      exact hs
    | link l _ hbytes => exact hbytes hs
    | taking | faces | page | marks | pixel | port | power => exact hs
  powerOn s := Nat.zero_le _
  pinReset s _ := Nat.zero_le _
  resetCommand s u _ _ := Nat.zero_le _
  pending s rest hs := hs

theorem schedulerSound_keptLaw : KeptLaw State.SchedulerSound where
  move c s t hm hs := by
    cases hm with
    | panel _ h => exact schedulerSound_kept c s t h hs
    | link | taking | faces | page | marks | pixel | port | power => exact hs
  powerOn s := ⟨Nat.zero_le _, fun i j d e _ _ _ h => by simp [State.powerOn, State.reset, Scheduler.initial_slot] at h⟩
  pinReset s _ := ⟨Nat.zero_le _, fun i j d e _ _ _ h => by simp [State.pinReset, Scheduler.initial_slot] at h⟩
  resetCommand s u _ _ :=
    ⟨Nat.zero_le _, fun i j d e _ _ _ h => by simp [State.resetBlocks, Scheduler.afterResetCommand_slot] at h⟩
  pending s rest hs := hs

theorem ghostInRange_keptLaw : KeptLaw State.GhostInRange where
  move c s t hm hs := by
    cases hm with
    | panel _ h => exact ghostInRange_kept c s t h hs
    | link | taking | faces | page | marks | pixel | port | power => exact hs
  powerOn s z := by simp [State.powerOn, State.reset, Scheduler.initial]
  pinReset s _ z := by simp [State.pinReset, Scheduler.initial]
  resetCommand s u hs _ := hs
  pending s rest hs := hs

theorem rectsOnPanel_keptLaw : KeptLaw State.RectsOnPanel where
  move c s t hm hs := by
    cases hm with
    | panel _ h => exact rectsOnPanel_kept c s t h hs
    | page st lines r _ _ hlegal => exact ⟨hs.1, hs.2.1, hs.2.2.1, hlegal hs.2.2.2⟩
    | port p _ hwindow => exact ⟨hs.1, hs.2.1, hwindow hs.2.2.1, hs.2.2.2⟩
    | link | taking | faces | marks | pixel | power => exact hs
  powerOn s := ⟨nofun, fun i d h => by simp [State.powerOn, State.reset, Scheduler.initial_slot] at h,
    Rect.panel_onPanel, Template.initial_legal⟩
  pinReset s _ := ⟨nofun, fun i d h => by simp [State.pinReset, Scheduler.initial_slot] at h, Rect.panel_onPanel,
    Template.initial_legal⟩
  resetCommand s u _ hu := ⟨nofun, fun i d h => by simp [State.resetBlocks, Scheduler.afterResetCommand_slot] at h,
    hu.2.2.1, hu.2.2.2⟩
  pending s rest hs := hs

theorem canonical_keptLaw : KeptLaw State.Canonical where
  move c s t hm hs := by
    cases hm with
    | panel _ h => exact canonical_kept c s t h hs
    | faces fs tk _ hpool => exact ⟨hs.1, hs.2.1, hs.2.2.1, hs.2.2.2.1, hpool hs.2.2.2.2⟩
    | pixel x y v turn _ => exact ⟨Plane.setPixel_wf _ _ _ _ hs.1, hs.2.1, hs.2.2.1, hs.2.2.2.1, hs.2.2.2.2⟩
    | link | taking | page | marks | port | power => exact hs
  powerOn s := ⟨rfl, rfl, rfl, rfl, rfl⟩
  pinReset s hs := ⟨hs.1, hs.2.1, hs.2.2.1, rfl, rfl⟩
  resetCommand s u hs hu := ⟨hs.1, hs.2.1, hs.2.2.1, rfl, hu.2.2.2.2⟩
  pending s rest hs := hs

theorem quietSound_keptLaw : KeptLaw State.QuietSound where
  move c s t hm hs := by
    cases hm with
    | panel _ h => exact quietSound_kept c s t h hs
    | link | taking | faces | page | marks | pixel | port | power => exact hs
  powerOn s := ⟨fun _ => anyDriving_replicate .initial, fun h => absurd rfl h, fun h => absurd rfl h⟩
  pinReset s _ := ⟨fun _ => anyDriving_replicate .initial, fun h => absurd rfl h, fun h => absurd rfl h⟩
  resetCommand s u _ _ := ⟨fun _ => (Scheduler.anyDriving_eq_false _).2 s.sched.afterResetCommand_slot,
    fun h => absurd rfl h, fun h => absurd rfl h⟩
  pending s rest hs := hs

theorem marksSound_keptLaw : KeptLaw State.MarksSound where
  move c s t hm hs := by
    rw [State.marksSound_iff] at hs ⊢
    cases hm with
    | panel _ h =>
      rw [h.panelOnly.marks]
      exact hs
    | marks m h => exact h hs
    | link | taking | faces | page | pixel | port | power => exact hs
  powerOn s := (State.marksSound_iff _).2 ⟨.nil, Nat.zero_le _, nofun, nofun, fun _ => rfl⟩
  pinReset s _ := (State.marksSound_iff _).2 ⟨.nil, Nat.zero_le _, nofun, nofun, fun _ => rfl⟩
  resetCommand s u _ hu := by
    rw [State.marksSound_iff] at hu ⊢
    exact ⟨hu.table.offPage, Nat.zero_le _, nofun, hu.serving, fun _ => rfl⟩
  pending s rest hs := hs

theorem renderListSound_keptLaw : KeptLaw State.RenderListSound where
  move c s t hm hs := by
    cases hm with
    | panel _ h =>
      unfold State.RenderListSound
      rw [h.panelOnly.renderer]
      exact hs
    | page st lines r _ hlist _ => exact hlist hs
    | link | taking | faces | marks | pixel | port | power => exact hs
  powerOn s := ⟨.nil, nofun⟩
  pinReset s _ := ⟨.nil, nofun⟩
  resetCommand s u _ _ := ⟨.nil, nofun⟩
  pending s rest hs := hs

/-- An empty page under a legal template. -/
theorem linesSound_empty {s : State} (ht : s.setter.template.legal = true) (hlines : s.lines = .initial)
    (hrender : s.renderer = .initial) (hjob : s.setter.job = none) : s.LinesSound := by
  refine ⟨ht, fun slot h => ?_, ?_, ?_, ?_⟩
  · rw [hlines, LineTable.initial_slot] at h
    cases h
  · simp [hrender, Renderer.initial]
  · simp [hrender, Renderer.initial]
  · simp [hjob]

theorem linesSound_keptLaw : KeptLaw State.LinesSound where
  move c s t hm hs := by
    cases hm with
    | panel _ h =>
      unfold State.LinesSound
      rw [h.panelOnly.setter, h.panelOnly.lines, h.panelOnly.renderer]
      exact hs
    | page st lines r h _ _ => exact h hs
    | link | taking | faces | marks | pixel | port | power => exact hs
  powerOn s := linesSound_empty Template.initial_legal rfl rfl rfl
  pinReset s _ := linesSound_empty Template.initial_legal rfl rfl rfl
  resetCommand s u _ hu := linesSound_empty hu.1 rfl rfl rfl
  pending s rest hs := hs

theorem facesSound_keptLaw : KeptLaw State.FacesSound where
  move c s t hm hs := by
    rw [State.facesSound_iff] at hs ⊢
    cases hm with
    | panel _ h =>
      rw [h.panelOnly.faces, h.panelOnly.link]
      exact hs
    | link l htaking _ =>
      show s.faces.Sound l.taking
      rw [htaking]
      exact hs
    | taking tk hold hnew _ =>
      exact hs.restrict (.refl _) hs.opened (hs.stream.2 hold) hnew
    | faces fs tk hsound => exact hsound hs
    | page | marks | pixel | port | power => exact hs
  powerOn s := (State.facesSound_iff _).2 (FaceStore.initial_sound (by simp [State.powerOn, Link.initial]))
  pinReset s _ := (State.facesSound_iff _).2 (FaceStore.initial_sound (by simp [State.pinReset, Link.initial]))
  resetCommand s u _ hu := (State.facesSound_iff _).2
    (((State.facesSound_iff _).1 hu).afterResetCommand (by simp [State.resetBlocks, Link.afterResetCommand, Link.initial]))
  pending s rest hs := hs

theorem portSound_keptLaw : KeptLaw State.PortSound where
  move c s t hm hs := by
    cases hm with
    | panel _ h =>
      unfold State.PortSound
      rw [h.panelOnly.port, h.panelOnly.link]
      exact hs
    | link l htaking _ =>
      refine ⟨hs.1, fun v left h => ?_⟩
      obtain ⟨h1, h2, h3⟩ := hs.2 v left h
      exact ⟨h1, h2, fun hl => h3 (htaking ▸ hl)⟩
    | taking tk _ _ himage =>
      refine ⟨hs.1, fun v left h => ?_⟩
      obtain ⟨h1, h2, _⟩ := hs.2 v left h
      refine ⟨h1, h2, fun htk => ?_⟩
      have := himage htk
      rw [← Bool.not_eq_true, ImagePort.isFilling_iff] at this
      exact this ⟨v, left, h⟩
    | faces fs tk _ _ himage =>
      refine ⟨hs.1, fun v left h => ?_⟩
      obtain ⟨h1, h2, h3⟩ := hs.2 v left h
      exact ⟨h1, h2, fun htk => h3 (himage htk)⟩
    | port p h _ => exact h hs
    | page | marks | pixel | power => exact hs
  powerOn s := ⟨Nat.zero_le _, nofun⟩
  pinReset s _ := ⟨Nat.zero_le _, nofun⟩
  resetCommand s u _ _ := ⟨Nat.zero_le _, nofun⟩
  pending s rest hs := hs

/-! ### The frame timer -/

theorem State.Moves.frameSound {c : Instr} (hc : c ≠ .frameEnd) {s t : State} (hm : s.Moves c t) (hs : s.FrameSound) :
    t.FrameSound := by
  induction hm with
  | refl => exact hs
  | tail _ hm ih =>
    cases hm with
    | panel _ h => exact State.PanelMoves.frameSound hc (.single h) ih
    | link | taking | faces | page | marks | pixel | port | power => exact ih

/-- Every row keeps the law of the frame timer: a frame end sets the timer by what drives. -/
theorem exec_frameSound {c : Instr} {s t : State} (hx : exec c s = .next t) (hs : s.FrameSound) : t.FrameSound := by
  by_cases hc : c = .frameEnd
  · subst hc
    obtain rfl : s.frameExpires = t := Host.Outcome.next.inj hx
    unfold State.frameExpires
    split
    · exact s.frameEnds_frameSound
    · exact hs
  · cases exec_reaches_of hx with
    | moves _ hm => exact hm.frameSound hc hs
    | powerOn => exact fun h => absurd rfl h
    | pinReset => exact fun h => absurd rfl h
    | resetCommand u hm => exact fun h => absurd rfl h

theorem step_driveSound {s t : State} (hx : step s = .next t) (hs : s.DriveSound) : t.DriveSound := by
  rw [State.driveSound_iff] at hs ⊢
  refine ⟨quietSound_keptLaw.step hx hs.1, ?_⟩
  rcases step_cases hx with rfl | ⟨c, rest, hx⟩
  · exact hs.2
  · exact exec_frameSound hx hs.2

/-! ### The step lemmas -/

/-- Settles O28: every elementary change and every reset keeps the law of the line table. -/
theorem setLinesHaveBoxes : Obligations.SetLinesHaveBoxes := fun _ _ hs hx => linesSound_keptLaw.step hx hs

/-- Settles O35: every elementary change and every reset keeps the law of the face store. -/
theorem glyphRunsNeverOverlap : Obligations.GlyphRunsNeverOverlap := fun _ _ hs hx => facesSound_keptLaw.step hx hs

/-- Settles O39: every elementary change and every reset keeps the law of the mark table. -/
theorem markTableStaysInOrder : Obligations.MarkTableStaysInOrder := fun _ _ hs hx => marksSound_keptLaw.step hx hs

/-- Settles O56: every elementary change and every reset keeps each of the four laws; a frame end sets the frame timer. -/
theorem schedulerLawsAreKept : Obligations.SchedulerLawsAreKept := fun _ _ hx =>
  ⟨schedulerSound_keptLaw.step hx, ghostInRange_keptLaw.step hx, step_driveSound hx, rectsOnPanel_keptLaw.step hx⟩

/-- Settles O57: every elementary change and every reset keeps each of the four laws. -/
theorem boundsAndFormsAreKept : Obligations.BoundsAndFormsAreKept := fun _ _ hx =>
  ⟨fifoBounded_kept.step hx, renderListSound_keptLaw.step hx, portSound_keptLaw.step hx, canonical_keptLaw.step hx⟩

/-- Settles O13: the state after reset is that after power-on, which keeps every law. -/
theorem resetStateIsSafe : Obligations.ResetStateIsSafe where
  fifo := fifoBounded_kept.powerOn .reset
  scheduler := schedulerSound_keptLaw.powerOn .reset
  ghost := ghostInRange_keptLaw.powerOn .reset
  marks := marksSound_keptLaw.powerOn .reset
  renderList := renderListSound_keptLaw.powerOn .reset
  canonical := canonical_keptLaw.powerOn .reset
  faces := facesSound_keptLaw.powerOn .reset
  lines := linesSound_keptLaw.powerOn .reset
  drive := (State.driveSound_iff _).2 ⟨quietSound_keptLaw.powerOn .reset, fun h => absurd rfl h⟩
  rects := rectsOnPanel_keptLaw.powerOn .reset
  port := portSound_keptLaw.powerOn .reset
  sleep := ⟨fun h => absurd rfl h, nofun⟩

/-! ### READY faces (R31) -/

theorem State.Moves.steady {c : Instr} (hc : c ≠ .faceSeal) {s t : State} (hm : s.Moves c t) (hf : s.FacesSound)
    (hcan : s.Canonical) (f : Nat) : s.faces.Steady f t.faces := by
  induction hm with
  | refl => exact .refl f _
  | @tail u v hsu hm ih =>
    have hfu := (State.facesSound_iff _).1 (facesSound_keptLaw.moves hsu hf)
    have hcu := canonical_keptLaw.moves hsu hcan
    refine ih.trans ?_
    cases hm with
    | panel _ h =>
      rw [h.panelOnly.faces]
      exact .refl f _
    | faces fs tk _ _ _ hsteady => exact hsteady hc hfu hcu.2.2.2.2 f
    | link | taking | page | marks | pixel | port | power => exact .refl f _

/-- FACE SEAL gives a record to a LOADING face alone. -/
theorem State.faceSeal_same (ps : List Byte) (s : State) {f : Nat} (hready : s.faces.Ready f) :
    s.faces.SameFace f (s.faceSeal ps).faces := by
  unfold State.faceSeal
  split
  · exact .refl f _
  · next k _ =>
    split
    · next hload =>
      refine FaceStore.setFace_same _ _ fun hk => ?_
      rw [FaceStore.Ready, hk, hload] at hready
      cases hready
    · exact .refl f _

theorem State.settleCut_faces {s : State} (ht : s.link.taking = .ignoring) : s.settleCut.faces = s.faces := by
  unfold State.settleCut
  split
  · simp [State.endCommand, State.endTaking, ht]
  · rfl

theorem State.faceSeal_taking (ps : List Byte) (s : State) : (s.faceSeal ps).link.taking = s.link.taking := by
  unfold State.faceSeal
  split
  · rfl
  · split <;> rfl

/-- Settles O36: every act but FACE SEAL keeps READY faces steady, and FACE SEAL changes a LOADING one. -/
theorem readyFacesDoNotChange : Obligations.ReadyFacesDoNotChange := by
  intro c s t f hfaces hcan hx hready hready'
  have same : s.faces.SameFace f t.faces := by
    by_cases hc : c = .faceSeal
    · subst hc
      obtain rfl : s.atLastParam .faceSeal State.faceSeal = t := Host.Outcome.next.inj hx
      by_cases hat : ∃ ps, s.AtLastParam .faceSeal ps
      · obtain ⟨ps, hat⟩ := hat
        rw [State.atLastParam_acts _ hat, State.settleCut_faces (by rw [State.faceSeal_taking]; rfl)]
        exact State.faceSeal_same ps s.paramsTaken hready
      · rw [State.atLastParam_away _ (not_exists.1 hat)]
        exact .refl f _
    · cases exec_reaches_of hx with
      | moves _ hm => exact (hm.steady hc hfaces hcan f hready').2
      | powerOn => exact absurd hready' (FaceStore.initial_not_ready f)
      | pinReset => exact absurd hready' (FaceStore.initial_not_ready f)
      | resetCommand u hm =>
        exact (((hm.steady hc hfaces hcan f).trans (u.faces.afterResetCommand_steady f)) hready').2
  exact ⟨same.record, same.entries, same.coverage⟩

/-! ### Every row answers (00_scope.md, section 5) -/

theorem State.Moves.pending {c : Instr} {s t : State} (hm : s.Moves c t) : t.pending = s.pending := by
  induction hm with
  | refl => rfl
  | tail _ hm ih =>
    cases hm with
    | panel _ h => exact h.panelOnly.pending.trans ih
    | link | taking | faces | page | marks | pixel | port | power => exact ih

/-- Settles O2: a row reaches a next state by changes that leave the waiting commands. -/
theorem everyRowCompletes : Obligations.EveryRowCompletes := by
  intro c s
  obtain ⟨t, hx, hr⟩ := exec_reaches c s
  refine ⟨t, hx, ?_⟩
  cases hr with
  | moves _ hm => exact hm.pending
  | powerOn => rfl
  | pinReset => rfl
  | resetCommand u hm => exact hm.pending

/-- Settles O1: by the definition of a step. -/
theorem stepRunsFrontCommand : Obligations.StepRunsFrontCommand := by
  intro s c rest
  constructor <;> intro h <;> simp [step, h]

end Sys2Proof.Machine
end

section
/-! PROOF. A part in SLEEP stands still (10.3): its rows reach only the link, the wake, the level of power-good and two
flags, and SLEEP is entered only by an idle part. -/

namespace Sys2Proof.Machine

/-! ### The bits of the flag word -/

theorem Event.mask_getLsbD (e : Event) {i : Nat} (hi : i < 16) : e.mask.getLsbD i = decide (e.bit = i) := by
  simp only [Event.mask, BitVec.getLsbD_ofNat, hi, decide_true, Bool.true_and, Nat.testBit_two_pow]

theorem State.raise_getLsbD (e : Event) (s : State) {i : Nat} (hi : i < 16) :
    (s.raise e).events.flags.getLsbD i = (s.events.flags.getLsbD i || decide (e.bit = i)) := by
  simp [Event.mask_getLsbD e hi]

/-! ### What changes in SLEEP -/

/-- What the link can be taking in SLEEP: nothing, bytes to be ignored, or a command that SLEEP takes (R167). -/
def Taking.OfSleep (tk : Taking) : Prop :=
  tk = .nothing ∨ tk = .ignoring ∨ ∃ c got, tk = .params c got ∧ c.takenAsleep = true

/-- The blocks of `s` stand still up to `t`: only the link, the wake and the start-up, the level of power-good and the
flags COMMAND_REFUSED and LINK_OVERRUN can differ, and no flag but those two is newly raised (R167). -/
structure State.SleepsOn (s t : State) : Prop where
  faces : t.faces = s.faces
  setter : t.setter = s.setter
  lines : t.lines = s.lines
  marks : t.marks = s.marks
  renderer : t.renderer = s.renderer
  image : t.image = s.image
  port : t.port = s.port
  sched : t.sched = s.sched
  drive : t.drive = s.drive
  supply : t.supply = { s.supply with pgood := t.supply.pgood }
  asleep : t.power.asleep = s.power.asleep
  flags : ∀ i, i < 16 → i ≠ 11 → i ≠ 12 → t.events.flags.getLsbD i = true → s.events.flags.getLsbD i = true
  taking : t.link.taking.OfSleep

variable {s u : State}

theorem State.SleepsOn.refl (h : s.link.taking.OfSleep) : s.SleepsOn s :=
  ⟨rfl, rfl, rfl, rfl, rfl, rfl, rfl, rfl, rfl, rfl, rfl, fun _ _ _ _ h => h, h⟩

theorem State.SleepsOn.onLink (h : s.SleepsOn u) {l : Link} (hl : l.taking.OfSleep) :
    s.SleepsOn { u with link := l } := { h with taking := hl }

theorem State.SleepsOn.setTaking (h : s.SleepsOn u) {tk : Taking} (htk : tk.OfSleep) : s.SleepsOn (u.setTaking tk) :=
  h.onLink htk

theorem State.SleepsOn.dropFront (h : s.SleepsOn u) : s.SleepsOn u.dropFront := h.onLink h.taking

theorem State.SleepsOn.raise (h : s.SleepsOn u) {e : Event} (he : e = .commandRefused ∨ e = .linkOverrun) :
    s.SleepsOn (u.raise e) := by
  refine { h with flags := fun i hi h11 h12 hr => ?_ }
  rw [State.raise_getLsbD e u hi] at hr
  refine h.flags i hi h11 h12 ?_
  rcases he with rfl | rfl <;> simpa [Event.bit, h11.symm, h12.symm] using hr

theorem State.SleepsOn.refuse (h : s.SleepsOn u) (code : Byte) (reason : Reason) :
    s.SleepsOn (u.refuse code reason) :=
  State.SleepsOn.raise (h.onLink (l := { u.link with lastRefusal := ⟨code, reason.code⟩ }) h.taking) (.inl rfl)

theorem State.SleepsOn.giveReply (h : s.SleepsOn u) (r : Reply) : s.SleepsOn (u.giveReply r) := by
  rw [State.giveReply_eq]
  exact h.onLink h.taking

/-! ### The link in SLEEP -/

/-- No stream is open in SLEEP: what ends is at most recorded SHORT. -/
theorem State.SleepsOn.endCommand (h : s.SleepsOn u) {next : Taking} (hnext : next.OfSleep) :
    s.SleepsOn (u.endCommand next) := by
  refine State.SleepsOn.setTaking ?_ hnext
  rcases h.taking with ht | ht | ⟨c, got, ht, -⟩ <;> simp only [State.endTaking, State.dropFront_taking, ht]
  · exact h.dropFront
  · exact h.dropFront
  · exact h.dropFront.refuse _ _

theorem Taking.ofSleep_ignoring : Taking.OfSleep .ignoring := .inr (.inl rfl)

theorem State.SleepsOn.settleCut (h : s.SleepsOn u) : s.SleepsOn u.settleCut := by
  unfold State.settleCut
  split
  · exact h.endCommand Taking.ofSleep_ignoring
  · exact h

theorem State.SleepsOn.begun (h : s.SleepsOn u) : s.SleepsOn u.begun := h.endCommand Taking.ofSleep_ignoring

section
variable (ha : s.power.asleep = true)
include ha

/-- A command with no parameters that SLEEP does not take is refused ASLEEP; one that it takes acts. -/
theorem State.SleepsOn.atCommand (h : s.SleepsOn u) (c : Cmd) (act : State → State)
    (hact : c.takenAsleep = true → ∀ v, s.SleepsOn v → s.SleepsOn (act v)) : s.SleepsOn (u.atCommand c act) := by
  by_cases hb : u.AtCommandByte c
  · have hasleep : u.begun.power.asleep = true := h.begun.asleep.trans ha
    rcases Bool.eq_false_or_eq_true c.takenAsleep with hc | hc
    · rw [State.atCommand_acts act hb (.inr hc)]
      exact (hact hc _ h.begun).settleCut
    · rw [State.atCommand_asleep act hb hasleep hc]
      exact (h.begun.refuse _ _).settleCut
  · rw [State.atCommand_away act hb]
    exact h

omit ha in
/-- The parameters of a command that SLEEP does not take are ignored. -/
theorem State.SleepsOn.atLastParam (h : s.SleepsOn u) (c : Cmd) (act : List Byte → State → State)
    (hact : c.takenAsleep = true → ∀ ps v, s.SleepsOn v → s.SleepsOn (act ps v)) : s.SleepsOn (u.atLastParam c act) := by
  by_cases hb : ∃ ps, u.AtLastParam c ps
  · obtain ⟨ps, hb⟩ := hb
    rw [State.atLastParam_acts act hb]
    obtain ⟨got, b, rest, htk, -⟩ := hb
    have hc : c.takenAsleep = true := by
      rcases h.taking with ht | ht | ⟨d, g, ht, hd⟩
      · simp [ht] at htk
      · simp [ht] at htk
      · rw [ht] at htk
        cases htk
        exact hd
    exact (hact hc ps _ (h.dropFront.setTaking Taking.ofSleep_ignoring)).settleCut
  · rw [State.atLastParam_away act (not_exists.1 hb)]
    exact h

omit ha in
theorem State.SleepsOn.unknownArrives (h : s.SleepsOn u) : s.SleepsOn u.unknownArrives := by
  unfold State.unknownArrives
  split
  · split
    · exact (h.begun.refuse _ _).settleCut
    · split
      · exact (h.begun.refuse _ _).settleCut
      · exact h
  · exact h

theorem State.SleepsOn.openCommand (h : s.SleepsOn u) (c : Cmd) : s.SleepsOn (u.openCommand c) := by
  have hasleep : (u.endCommand .ignoring).power.asleep = true := h.begun.asleep.trans ha
  refine State.SleepsOn.settleCut ?_
  rcases Bool.eq_false_or_eq_true c.takenAsleep with hc | hc
  · simp only [hasleep, hc, Bool.not_true, Bool.and_false, Bool.false_eq_true, if_false]
    exact State.SleepsOn.setTaking h.begun (.inr (.inr ⟨c, [], rfl, hc⟩))
  · simp only [hasleep, hc, Bool.not_false, Bool.and_true, if_true]
    exact h.begun.refuse _ _

theorem State.SleepsOn.byteArrives (h : s.SleepsOn u) : s.SleepsOn u.byteArrives := by
  unfold State.byteArrives
  split
  · split
    · split
      · exact h
      · exact h.openCommand ha _
    · exact h
  · split
    · next c got htk =>
      have hc : c.takenAsleep = true := by
        rcases h.taking with ht | ht | ⟨d, g, ht, hd⟩ <;> rw [htk] at ht <;> cases ht
        exact hd
      split
      · exact (h.dropFront.setTaking (.inr (.inr ⟨c, _, rfl, hc⟩))).settleCut
      · exact h
    · exact h.dropFront.settleCut
    · exact h.dropFront.settleCut
    · exact h
  · exact h.settleCut
  · exact h

omit ha in
theorem State.SleepsOn.csEdge (h : s.SleepsOn u) : s.SleepsOn u.csEdge := by
  unfold State.csEdge
  split <;> exact h.onLink h.taking

omit ha in
theorem State.SleepsOn.csArrives (h : s.SleepsOn u) : s.SleepsOn u.csArrives := by
  unfold State.csArrives
  split
  · exact h.endCommand (.inl rfl)
  · exact h

omit ha in
theorem State.SleepsOn.droppedArrives (h : s.SleepsOn u) : s.SleepsOn u.droppedArrives := by
  unfold State.droppedArrives
  split
  · exact h.begun.refuse _ _
  · exact h

theorem State.SleepsOn.takeRead (h : s.SleepsOn u) (c : Cmd) : s.SleepsOn (u.takeRead c) := by
  unfold State.takeRead
  split
  · exact h.atCommand ha _ _ fun _ v hv => hv.giveReply _
  · exact h.atCommand ha _ _ fun _ v hv => hv.giveReply _
  · exact h.atCommand ha _ _ nofun
  · exact h.atCommand ha _ _ nofun
  · exact h.atLastParam _ _ nofun
  · exact h.atLastParam _ _ nofun
  · exact h.atLastParam _ _ nofun
  · exact h

theorem State.SleepsOn.takeFront (h : s.SleepsOn u) : s.SleepsOn u.takeFront := by
  unfold State.takeFront
  split
  · exact h
  · split
    · split
      · exact h.takeRead ha _
      · exact h.byteArrives ha
    · exact h
  · split
    · split
      · exact h.takeRead ha _
      · exact h.byteArrives ha
    · exact h.byteArrives ha
  · exact h.csArrives
  · exact h.droppedArrives
  · exact h.settleCut

theorem State.SleepsOn.readAhead (h : s.SleepsOn u) : s.SleepsOn u.readAhead := by
  unfold State.readAhead
  split
  · exact takeItems_keeps (P := fun v => s.SleepsOn v) (fun v hv => hv.takeFront ha) _ _ h
  · exact h

omit ha in
theorem State.SleepsOn.clockCommand (h : s.SleepsOn u) (b : Byte) : s.SleepsOn (u.clockCommand b) := by
  unfold State.clockCommand
  split
  · refine State.SleepsOn.raise ?_ (.inr rfl)
    exact h.onLink h.taking
  · exact h.onLink h.taking

theorem State.SleepsOn.clockParameter (h : s.SleepsOn u) (b : Byte) : s.SleepsOn (u.clockParameter b) := by
  unfold State.clockParameter
  split
  · exact h.onLink h.taking
  · exact (h.readAhead ha).onLink (h.readAhead ha).taking
  all_goals
    split
    · refine State.SleepsOn.raise ?_ (.inr rfl)
      exact h.onLink h.taking
    · exact h.onLink h.taking

theorem State.SleepsOn.clockByte (h : s.SleepsOn u) (kind : ByteKind) (b : Byte)
    (hb : kind = .command → b ≠ Cmd.reset.code) : s.SleepsOn (u.clockByte kind b) := by
  unfold State.clockByte
  split
  · exact h.onLink h.taking
  · split
    · rw [if_neg (hb rfl)]
      exact h.clockCommand b
    · exact h.clockParameter ha b

end

/-! ### The blocks in SLEEP -/

/-- Every block is idle, and the supply is OFF with no timer running. -/
structure State.Rests (s : State) : Prop where
  composing : s.setter.job = none
  list : s.renderer.list = []
  job : s.renderer.job = none
  serving : s.marks.serving = none
  requests : s.marks.queue = []
  filling : s.port.isFilling = false
  queue : s.sched.queue = []
  driving : s.sched.anyDriving = false

theorem State.quietForSleep_iff (s : State) : s.quietForSleep = true ↔ s.Rests := by
  constructor
  · intro h
    simp only [State.quietForSleep, Bool.and_eq_true, Option.isNone_iff_eq_none, List.isEmpty_iff,
      Bool.not_eq_true'] at h
    obtain ⟨⟨⟨⟨⟨⟨⟨h1, h2⟩, h3⟩, h4⟩, h5⟩, h6⟩, h7⟩, h8⟩ := h
    exact ⟨h1, h2, h3, h4, h5, h6, h7, h8⟩
  · rintro ⟨h1, h2, h3, h4, h5, h6, h7, h8⟩
    simp [State.quietForSleep, h1, h2, h3, h4, h5, h6, h7, h8]

theorem State.grantOne_of_idle {s : State} (hj : s.renderer.job = none) (hf : s.port.isFilling = false) :
    s.grantOne = s := by
  unfold State.grantOne
  split <;> simp_all [ImagePort.isFilling]

theorem State.grantUntil_of_idle {s : State} (hj : s.renderer.job = none) (hf : s.port.isFilling = false) (n : Nat) :
    grantUntilRendered n s = s ∧ grantUntilFilled n s = s := by
  cases n <;> simp [grantUntilRendered, grantUntilFilled, hj, hf]

theorem State.SleepsOn.pgood (h : s.SleepsOn u) (level : Bool) :
    s.SleepsOn { u with supply := { u.supply with pgood := level } } :=
  { h with supply := by rw [h.supply] }

theorem State.SleepsOn.pgoodRises (h : s.SleepsOn u) (hoff : u.supply.state = .off) : s.SleepsOn u.pgoodRises := by
  unfold State.pgoodRises
  split
  · exact h
  · have hp := h.pgood true
    simp only [hoff] at hp ⊢
    exact hp

theorem State.SleepsOn.pgoodFalls (h : s.SleepsOn u) (hoff : u.supply.state = .off) : s.SleepsOn u.pgoodFalls := by
  unfold State.pgoodFalls
  split
  · exact h
  · have hp := h.pgood false
    simp only [hoff] at hp ⊢
    exact hp

theorem State.SleepsOn.beginWake (h : s.SleepsOn u) : s.SleepsOn u.beginWake := by
  unfold State.beginWake
  split
  · exact { h with }
  · exact h

/-- An acknowledgement only clears flags. -/
theorem State.SleepsOn.eventAck (h : s.SleepsOn u) (ps : List Byte) : s.SleepsOn (u.eventAck ps) := by
  refine { h with flags := fun i hi h11 h12 hr => h.flags i hi h11 h12 ?_ }
  simp only [State.eventAck, BitVec.getLsbD_and, Bool.and_eq_true] at hr
  exact hr.1

/-- In SLEEP a row other than a reset and wake done leaves the blocks as they are. -/
theorem exec_sleepsOn {c : Instr} {s : State} (hs : s.SleepSound) (ha : s.power.asleep = true) (h1 : c ≠ .powerOn)
    (h2 : c ≠ .resetPin) (h3 : c ≠ .reset) (h4 : c ≠ .byteClockedIn .command 0x07) (h5 : c ≠ .wakeDone) :
    ∃ t, exec c s = .next t ∧ s.SleepsOn t := by
  obtain ⟨hframe, hlaw⟩ := hs
  obtain ⟨hquiet, hoff, hpowerUp, hfilter, hidle, hsettle, hage, htaking⟩ := hlaw ha
  obtain ⟨hcomposing, hlist, hjob, hserving, -, hfilling, -, hdriving⟩ := s.quietForSleep_iff.1 hquiet
  have refl : s.SleepsOn s := .refl htaking
  have same : ∀ v, v = s → s.SleepsOn v := fun v hv => by rw [hv]; exact refl
  have refused : ∀ (cmd : Cmd) (act : State → State), cmd.takenAsleep = false → s.SleepsOn (s.atCommand cmd act) :=
    fun cmd act hc => refl.atCommand ha cmd act fun h => by simp [hc] at h
  have ignored : ∀ (cmd : Cmd) (act : List Byte → State → State), cmd.takenAsleep = false →
      s.SleepsOn (s.atLastParam cmd act) :=
    fun cmd act hc => refl.atLastParam cmd act fun h => by simp [hc] at h
  have noStream : ∀ (stream : Taking → Bool) (act : Byte → State → State), stream .nothing = false →
      stream .ignoring = false → (∀ c got, stream (.params c got) = false) →
      s.SleepsOn (s.atStreamByte stream act) := fun stream act hn hi hp => by
    refine same _ (State.atStreamByte_away stream act (.inr ?_))
    rcases htaking with ht | ht | ⟨d, got, ht, -⟩ <;> rw [ht]
    · exact hn
    · exact hi
    · exact hp d got
  cases c with
  | powerOn => exact absurd rfl h1
  | resetPin => exact absurd rfl h2
  | reset => exact absurd rfl h3
  | wakeDone => exact absurd rfl h5
  | startUpDone => exact ⟨_, rfl, { refl with }⟩
  | byteClockedIn kind b => exact ⟨_, rfl, refl.clockByte ha kind b fun hk hb => h4 (by rw [hk, hb]; rfl)⟩
  | csRising phase =>
    cases phase with
    | edge => exact ⟨_, rfl, refl.csEdge⟩
    | arrival => exact ⟨_, rfl, refl.csArrives⟩
  | droppedCommandPlace => exact ⟨_, rfl, refl.droppedArrives⟩
  | unknownCommand => exact ⟨_, rfl, refl.unknownArrives⟩
  | fifoByteArrival => exact ⟨_, rfl, refl.byteArrives ha⟩
  | statusRead => exact ⟨_, rfl, refl.atCommand ha _ _ fun _ v hv => hv.giveReply _⟩
  | idRead => exact ⟨_, rfl, refl.atCommand ha _ _ fun _ v hv => hv.giveReply _⟩
  | wake => exact ⟨_, rfl, refl.atCommand ha _ _ fun _ v hv => hv.beginWake⟩
  | eventAck => exact ⟨_, rfl, refl.atLastParam _ _ fun _ ps v hv => hv.eventAck ps⟩
  | composeDone => exact ⟨_, rfl, same _ (by simp only [State.composeEnds, hcomposing])⟩
  | serviceDone => exact ⟨_, rfl, same _ (by simp only [State.serviceEnds, hserving])⟩
  | renderStart => exact ⟨_, rfl, same _ (by simp only [State.startRender, hjob, hlist])⟩
  | renderDone => exact ⟨_, rfl, same _ (State.grantUntil_of_idle hjob hfilling _).1⟩
  | fillComplete => exact ⟨_, rfl, same _ (State.grantUntil_of_idle hjob hfilling _).2⟩
  | arbiterWriteGrant => exact ⟨_, rfl, same _ (State.grantOne_of_idle hjob hfilling)⟩
  | frameEnd =>
    have hnone : s.drive.frame = none := by
      by_contra hf
      simp [hframe hf] at hdriving
    exact ⟨_, rfl, same _ (by simp [State.frameExpires, hnone])⟩
  | settleTimerExpiry => exact ⟨_, rfl, same _ (by simp [State.settleTimerExpires, hsettle])⟩
  | ageTimerExpiry => exact ⟨_, rfl, same _ (by simp [State.ageExpires, hage])⟩
  | pgoodRise => exact ⟨_, rfl, refl.pgoodRises hoff⟩
  | pgoodFall => exact ⟨_, rfl, refl.pgoodFalls hoff⟩
  | filterTimerExpiry => exact ⟨_, rfl, same _ (by simp [State.filterExpires, hfilter])⟩
  | powerUpTimerExpiry => exact ⟨_, rfl, same _ (by simp [State.powerUpExpires, hpowerUp])⟩
  | idleTimerExpiry => exact ⟨_, rfl, same _ (by simp [State.idleExpires, hidle])⟩
  | sleep | composeCancel | composeResult | markClear | scanNext | answerRead | imageWrite
  | displayNormal | displayInvert | blankOn | blankOff | supplyClear => exact ⟨_, rfl, refused _ _ rfl⟩
  | routeSet | templateSet | textLoad | compose | lineRead | pageClear | faceOpen | glyphPut | faceSeal
  | faceRetire | faceInfo | markAdd | markRange | markStyle | markRetire | markSweep | markGet | markAt
  | markScan | imageWindow | imageFill | imageRead | refresh | schedSet | waveLoad | bandsSet | tempSet
  | driveSet | supplySet => exact ⟨_, rfl, ignored _ _ rfl⟩
  | textLoadByte | glyphBitmapByte | imageWriteByte | waveFrameByte => exact ⟨_, rfl, noStream _ _ rfl rfl fun _ _ => rfl⟩

/-- Settles O19, from the course of every row in SLEEP. -/
theorem sleepingBlocksDoNoWork : Obligations.SleepingBlocksDoNoWork := by
  intro c s t hs ha h1 h2 h3 h4 h5 hx
  obtain ⟨u, hu, h⟩ := exec_sleepsOn hs ha h1 h2 h3 h4 h5
  rw [hx] at hu
  cases hu
  exact ⟨h.faces, h.setter, h.lines, h.marks, h.renderer, h.image, h.port, h.sched, h.drive, h.supply,
    h.asleep.trans ha, h.flags⟩

/-! ### Entering SLEEP -/

theorem State.enterSleep_link {s : State} (h : s.quietForSleep = true) : s.enterSleep.link = s.link := by
  simp [State.enterSleep, h]

/-- No row but SLEEP puts an ACTIVE part to sleep. -/
theorem State.Moves.awake {c : Instr} {s t : State} (h : s.Moves c t) (hc : c ≠ .sleep) (hs : s.power.asleep = false) :
    t.power.asleep = false := by
  induction h with
  | refl => exact hs
  | tail _ hm ih =>
    cases hm with
    | panel _ hp => rw [hp.panelOnly.power]; exact ih
    | power p hp =>
      rw [Bool.eq_false_iff]
      intro hpa
      rcases hp hpa with h | h
      · simp [ih] at h
      · exact hc h
    | link | taking | faces | page | marks | pixel | port => exact ih

/-- A part that SLEEP has taken to sleep is idle, as the law of SLEEP says. -/
theorem State.enterSleep_law {s : State} (hq : s.quietForSleep = true) (hf : s.FrameSound) (htk : s.link.taking = .ignoring) :
    s.enterSleep.SleepSound := by
  have he : s.enterSleep = { s with
      power := { s.power with asleep := true }
      supply := { s.supply with state := .off, powerUp := none, filter := none, idle := none }
      sched := { s.sched with settle := none }
      drive := { s.drive with age := s.drive.age.pause } } := if_pos hq
  rw [he]
  refine ⟨hf, fun _ => ⟨hq, rfl, rfl, rfl, rfl, rfl, ?_, .inr (.inl htk)⟩⟩
  show s.drive.age.pause ≠ .running
  cases s.drive.age <;> simp [AgeTimer.pause]

theorem State.SleepSound.taking {s : State} (hs : s.SleepSound) (ha : s.power.asleep = true) : s.link.taking.OfSleep := by
  obtain ⟨-, -, -, -, -, -, -, htaking⟩ := hs.2 ha
  exact htaking

/-- What stands still in SLEEP keeps the law of SLEEP. -/
theorem State.SleepsOn.sleepSound {s t : State} (h : s.SleepsOn t) (hs : s.SleepSound) (ha : s.power.asleep = true) :
    t.SleepSound := by
  obtain ⟨hframe, hlaw⟩ := hs
  obtain ⟨hquiet, hoff, hpowerUp, hfilter, hidle, hsettle, hage, -⟩ := hlaw ha
  have hrests := s.quietForSleep_iff.1 hquiet
  have hsup := h.supply
  refine ⟨by rw [h.drive, h.sched]; exact hframe, fun _ => ⟨?_, ?_, ?_, ?_, ?_, ?_, ?_, h.taking⟩⟩
  · rw [State.quietForSleep_iff]
    obtain ⟨h1, h2, h3, h4, h5, h6, h7, h8⟩ := hrests
    refine ⟨?_, ?_, ?_, ?_, ?_, ?_, ?_, ?_⟩ <;> simpa only [h.setter, h.renderer, h.marks, h.port, h.sched]
  · rw [hsup]; exact hoff
  · rw [hsup]; exact hpowerUp
  · rw [hsup]; exact hfilter
  · rw [hsup]; exact hidle
  · rw [h.sched]; exact hsettle
  · rw [h.drive]; exact hage

/-- An awake part whose frame timer keeps its law keeps the law of SLEEP. -/
theorem State.sleepSound_of_awake {s : State} (hf : s.FrameSound) (ha : s.power.asleep = false) : s.SleepSound :=
  ⟨hf, fun h => by simp [ha] at h⟩

theorem exec_sleep_sleepSound {s : State} (hf : s.FrameSound) (ha : s.power.asleep = false) :
    (s.atCommand .sleep State.enterSleep).SleepSound := by
  have hframe : (s.atCommand .sleep State.enterSleep).FrameSound := exec_frameSound (c := .sleep) rfl hf
  by_cases hb : s.AtCommandByte .sleep
  swap
  · rw [State.atCommand_away _ hb]
    exact State.sleepSound_of_awake hf ha
  have hbegun : s.Moves .wake s.begun := State.endCommand_moves s (by simp) (by simp)
  have hawake : s.begun.power.asleep = false := hbegun.awake (by simp) ha
  rw [State.atCommand_acts _ hb (.inl hawake)] at hframe ⊢
  rcases Bool.eq_false_or_eq_true s.begun.quietForSleep with hq | hq
  · have hlaw := State.enterSleep_law hq (hbegun.frameSound (by simp) hf) rfl
    have hasleep : s.begun.enterSleep.power.asleep = true := by simp [State.enterSleep, hq]
    have htk : s.begun.enterSleep.link.taking.OfSleep := by
      rw [State.enterSleep_link hq]
      exact Taking.ofSleep_ignoring
    exact (State.SleepsOn.refl htk).settleCut.sleepSound hlaw hasleep
  · refine State.sleepSound_of_awake hframe ?_
    have hrefused : s.begun.enterSleep = s.begun.refuse Cmd.sleep.code .busy := if_neg (by simp [hq])
    rw [hrefused]
    exact (State.settleCut_moves (c := .wake) _).awake (by simp) hawake

theorem State.resetCommand_wakes {s : State} (htk : s.link.taking.OfSleep) :
    s.resetCommand.power.asleep = false ∨ s.SleepsOn s.resetCommand := by
  unfold State.resetCommand
  split
  · exact .inr ((State.SleepsOn.refl htk).onLink htk)
  · exact .inl rfl

/-- A reset and wake done bring the part back, unless the start-up discards the byte or no wake is in progress. -/
theorem exec_wakes {c : Instr} {s t : State} (htk : s.link.taking.OfSleep)
    (hc : c = .powerOn ∨ c = .resetPin ∨ c = .reset ∨ c = .byteClockedIn .command 0x07 ∨ c = .wakeDone)
    (hx : exec c s = .next t) : t.power.asleep = false ∨ s.SleepsOn t := by
  rcases hc with rfl | rfl | rfl | rfl | rfl
  · exact .inl (by rw [← Host.Outcome.next.inj hx]; rfl)
  · exact .inl (by rw [← Host.Outcome.next.inj hx]; rfl)
  · obtain rfl : s.resetCommand = t := Host.Outcome.next.inj hx
    exact State.resetCommand_wakes htk
  · obtain rfl : s.clockByte .command 0x07 = t := Host.Outcome.next.inj hx
    unfold State.clockByte
    split
    · exact .inr ((State.SleepsOn.refl htk).onLink htk)
    · exact State.resetCommand_wakes htk
  · obtain rfl : s.wakeEnds = t := Host.Outcome.next.inj hx
    unfold State.wakeEnds
    split
    · exact .inl rfl
    · exact .inr (.refl htk)

/-- Every row keeps the law of SLEEP: in SLEEP the blocks stand still, and only an idle part enters SLEEP. -/
theorem exec_sleepSound {c : Instr} {s t : State} (hs : s.SleepSound) (hx : exec c s = .next t) : t.SleepSound := by
  have hframe : t.FrameSound := exec_frameSound hx hs.1
  have awake : t.power.asleep = false → t.SleepSound := State.sleepSound_of_awake hframe
  cases exec_reaches_of hx with
  | powerOn => exact awake rfl
  | pinReset => exact awake rfl
  | resetCommand u hm => exact awake rfl
  | moves _ hm =>
    rcases Bool.eq_false_or_eq_true s.power.asleep with ha | ha
    · by_cases hreset : c = .powerOn ∨ c = .resetPin ∨ c = .reset ∨ c = .byteClockedIn .command 0x07 ∨ c = .wakeDone
      · rcases exec_wakes (hs.taking ha) hreset hx with h | h
        · exact awake h
        · exact h.sleepSound hs ha
      · simp only [not_or] at hreset
        obtain ⟨h1, h2, h3, h4, h5⟩ := hreset
        obtain ⟨u, hu, hsleeps⟩ := exec_sleepsOn hs ha h1 h2 h3 h4 h5
        rw [hx] at hu
        cases hu
        exact hsleeps.sleepSound hs ha
    · by_cases hc : c = .sleep
      · subst hc
        obtain rfl : s.atCommand .sleep State.enterSleep = t := Host.Outcome.next.inj hx
        exact exec_sleep_sleepSound hs.1 ha
      · exact awake (hm.awake hc ha)

/-- Settles O18: a step in SLEEP leaves the blocks as they are, and only an idle part enters SLEEP. -/
theorem sleepHoldsAnIdlePart : Obligations.SleepHoldsAnIdlePart := by
  intro s t hs hx
  rcases step_cases hx with rfl | ⟨c, rest, hx⟩
  · exact hs
  · exact exec_sleepSound (s := { s with pending := rest }) hs hx

end Sys2Proof.Machine
end

section
/-! PROOF. How a scan judges the pending entries (8.3, 8.4): the course of the judging as a derivation, and what it starts,
leaves and keeps. -/

namespace Sys2Proof.Machine

/-! ### A start and a hold, field by field -/

theorem PanelDrive.startFrame_eq (d : PanelDrive) :
    d.startFrame = ({ d with frame := some (d.frame.getD d.period) }, d.frame.isNone) := by
  obtain ⟨_, _, _, _, _, _, _, frame, _⟩ := d
  cases frame <;> rfl

/-- A frame in progress goes on. -/
theorem PanelDrive.frame_runs {d : PanelDrive} {n : Nat} (h : d.frame = some n) :
    { d with frame := some (d.frame.getD d.period) } = d := by
  rw [h, Option.getD_some, ← h]

theorem State.startIn_eq (i : Nat) (e : Request) (s : State) :
    s.startIn i e = { s with
      image := { s.image with goal := Plane.copyRect (goalLevel s.sched e.mode) s.image.target e.rect s.image.goal }
      sched := { s.sched with slots := put s.sched.slots i (some ⟨e.rect, e.mode, s.drive.band,
        ((s.drive.table e.mode s.drive.band).readyLength).getD 0, 0, s.drive.frame.isNone⟩) }
      drive := { s.drive with frame := some (s.drive.frame.getD s.drive.period) } } := by
  unfold State.startIn
  rw [PanelDrive.startFrame_eq]

theorem State.holdForWave_eq (s : State) :
    s.holdForWave = { s with
      sched := { s.sched with waveHold := true }
      events := if s.sched.waveHold = true then s.events else (s.raise .noWaveform).events } := by
  unfold State.holdForWave
  split
  · next h => simp only [← h]
  · rfl

/-! ### The course of the judging -/

/-- Entries are judged one by one behind the older ones that were left: one is held where it meets a DRIVING slot or an
older entry, wants a waveform, or starts in the lowest FREE slot; with no slot FREE the judging ends (R125 to R130). -/
inductive Judges : List Request → List Request → Bool → State → State → Prop
  | done (older : List Request) (want : Bool) (s : State) :
    Judges older [] want s { s with sched := { s.sched with queue := older, waveHold := want && s.sched.waveHold } }
  | full (older rest : List Request) (e : Request) (want : Bool) (s : State) (hfull : s.sched.freeSlot = none) :
    Judges older (e :: rest) want s { s with sched := { s.sched with queue := older ++ e :: rest } }
  | held (older rest : List Request) (e e' : Request) (want : Bool) (s t : State)
    (he : e' = e ∨ e' = e.promote s.sched) (hblocked : s.sched.blocked older e'.rect = true)
    (h : Judges (older ++ [e']) rest want s t) : Judges older (e :: rest) want s t
  | wants (older rest : List Request) (e e' : Request) (want : Bool) (s t : State)
    (he : e' = e ∨ e' = e.promote s.sched) (hclear : s.sched.blocked older e'.rect = false)
    (hmode : s.drive.chooseMode e'.mode = none) (h : Judges (older ++ [e']) rest true s.holdForWave t) :
    Judges older (e :: rest) want s t
  | starts (older rest : List Request) (e : Request) (want : Bool) (s t : State) (i : Nat) (m : Mode)
    (hfree : s.sched.freeSlot = some i) (hclear : s.sched.blocked older (e.promote s.sched).rect = false)
    (hmode : s.drive.chooseMode (e.promote s.sched).mode = some m)
    (h : Judges older rest want (s.startIn i { e.promote s.sched with mode := m }) t) : Judges older (e :: rest) want s t

theorem scanEntries_judges (entries older : List Request) (want : Bool) (s : State) :
    Judges older entries want s (scanEntries older entries want s) := by
  induction entries generalizing older want s with
  | nil => exact .done older want s
  | cons e rest ih =>
    unfold scanEntries
    split
    · next h => exact .full older rest e want s h
    · next i hi =>
      split
      · next hb => exact .held older rest e e want s _ (.inl rfl) hb (ih ..)
      · next hb =>
        rw [Bool.not_eq_true] at hb
        split
        · next hm =>
          exact .wants older rest e e want s _ (.inl rfl) hb (Option.isNone_iff_eq_none.1 hm) (ih ..)
        · unfold State.latch
          simp only
          by_cases hfar : (e.promote s.sched).rect ≠ e.rect ∧ s.sched.blocked older (e.promote s.sched).rect = true
          · simp only [if_pos hfar]
            exact .held older rest e _ want s _ (.inr rfl) hfar.2 (ih ..)
          · have hclear : s.sched.blocked older (e.promote s.sched).rect = false := by
              by_cases heq : (e.promote s.sched).rect = e.rect
              · rw [heq]; exact hb
              · simpa [heq] using hfar
            simp only [if_neg hfar]
            cases hm : s.drive.chooseMode (e.promote s.sched).mode with
            | none => exact .wants older rest e _ want s _ (.inr rfl) hclear hm (ih ..)
            | some m => exact .starts older rest e want s _ i m hi hclear hm (ih ..)

/-! ### What judging leaves alone -/

theorem Judges.rest {older entries : List Request} {want : Bool} {s t : State} (h : Judges older entries want s t) :
    t = { s with
      image := { s.image with goal := t.image.goal }
      sched := { s.sched with queue := t.sched.queue, slots := t.sched.slots, waveHold := t.sched.waveHold }
      drive := { s.drive with frame := t.drive.frame }
      events := t.events } := by
  induction h with
  | done | full => rfl
  | held _ _ _ _ _ _ _ _ _ _ ih => exact ih
  | wants _ _ _ _ _ s t _ _ _ _ ih =>
    rw [State.holdForWave_eq] at ih
    exact ih
  | starts _ _ _ _ s t i m _ _ _ _ ih =>
    rw [State.startIn_eq] at ih
    exact ih

/-- In `t` slot `i` holds what a start since `s` put there. -/
def State.Started (s t : State) (i : Nat) (d : Driving) : Prop := s.sched.slot i = none ∧ t.sched.slot i = some d

variable {older entries : List Request} {want : Bool} {s t : State}

theorem State.not_started (h : t.sched.slots = s.sched.slots) (i : Nat) (d : Driving) : ¬ s.Started t i d := by
  rintro ⟨h1, h2⟩
  rw [Scheduler.slot, h] at h2
  rw [Scheduler.slot, h2] at h1
  cases h1

theorem State.startIn_slot (s : State) (i j : Nat) (e : Request) :
    (s.startIn i e).sched.slot j = if j = i ∧ i < 8 then some ⟨e.rect, e.mode, s.drive.band,
      ((s.drive.table e.mode s.drive.band).readyLength).getD 0, 0, s.drive.frame.isNone⟩ else s.sched.slot j := by
  rw [State.startIn_eq]
  exact slot_put

theorem State.startIn_slot_self (s : State) {i : Nat} (hi : i < 8) (e : Request) :
    (s.startIn i e).sched.slot i = some ⟨e.rect, e.mode, s.drive.band,
      ((s.drive.table e.mode s.drive.band).readyLength).getD 0, 0, s.drive.frame.isNone⟩ := by
  rw [State.startIn_slot, if_pos ⟨rfl, hi⟩]

theorem State.startIn_slot_other (s : State) {i j : Nat} (hij : j ≠ i) (e : Request) :
    (s.startIn i e).sched.slot j = s.sched.slot j := by
  rw [State.startIn_slot, if_neg fun h => hij h.1]

theorem State.holdForWave_slot (s : State) (i : Nat) : s.holdForWave.sched.slot i = s.sched.slot i := by
  rw [State.holdForWave_eq]
  rfl

/-- Slots that were DRIVING go on as they were. -/
theorem Judges.kept (h : Judges older entries want s t) {i : Nat} {d : Driving} (hd : s.sched.slot i = some d) :
    t.sched.slot i = some d := by
  induction h with
  | done | full => exact hd
  | held _ _ _ _ _ _ _ _ _ _ ih => exact ih hd
  | wants _ _ _ _ _ s _ _ _ _ _ ih => exact ih (by rw [s.holdForWave_slot]; exact hd)
  | starts _ _ _ _ s _ j m hfree _ _ _ ih =>
    refine ih ?_
    rw [State.startIn_slot_other _ _ _]
    · exact hd
    · rintro rfl
      rw [(Scheduler.freeSlot_some hfree).2] at hd
      cases hd

/-- What a start puts into its slot stays there to the end of the judging. -/
theorem Judges.kept_start {i : Nat} {e : Request}
    (h : Judges older entries want (s.startIn i e) t) (hi : i < 8) :
    t.sched.slot i = some ⟨e.rect, e.mode, s.drive.band,
      ((s.drive.table e.mode s.drive.band).readyLength).getD 0, 0, s.drive.frame.isNone⟩ :=
  h.kept (s.startIn_slot_self hi e)

/-- A slot started since `s` is the first one started, or has started since then. -/
theorem State.Started.cases {i j : Nat} {e : Request} {d : Driving} (h : s.Started t j d) :
    j = i ∨ (s.startIn i e).Started t j d := by
  by_cases hij : j = i
  · exact .inl hij
  · exact .inr ⟨by rw [State.startIn_slot_other _ hij]; exact h.1, h.2⟩

theorem State.Started.lift {i j : Nat} {e : Request} {d : Driving} (h : (s.startIn i e).Started t j d) : s.Started t j d := by
  refine ⟨?_, h.2⟩
  have := h.1
  rw [State.startIn_slot] at this
  split at this
  · cases this
  · exact this

theorem State.holdForWave_started (s t : State) (i : Nat) (d : Driving) :
    s.holdForWave.Started t i d ↔ s.Started t i d := by
  unfold State.Started
  rw [s.holdForWave_slot]

theorem Wave.readyLength_some {w : Wave} {n : Nat} (h : w.readyLength = some n) : ∃ data, w = .ready n data := by
  cases w with
  | absent => cases h
  | loading n data => cases h
  | ready k data =>
    cases h
    exact ⟨data, rfl⟩

theorem PanelDrive.isReady_iff (d : PanelDrive) (m : Mode) :
    d.isReady m = true ↔ ∃ n data, d.table m d.band = .ready n data := by
  unfold PanelDrive.isReady
  rw [Option.isSome_iff_exists]
  constructor
  · rintro ⟨n, hn⟩
    exact ⟨n, Wave.readyLength_some hn⟩
  · rintro ⟨n, data, h⟩
    exact ⟨n, by rw [h]; rfl⟩

theorem PanelDrive.chooseMode_ready {d : PanelDrive} {m c : Mode} (h : d.chooseMode m = some c) :
    ∃ n data, d.table c d.band = .ready n data := by
  have hp := List.find?_some h
  simp only [Bool.and_eq_true] at hp
  exact (d.isReady_iff c).1 hp.2

/-- What has started holds the band in force, the length of its READY table and frame count 0. -/
theorem Judges.started_fields (h : Judges older entries want s t) {i : Nat} {d : Driving} (hd : s.Started t i d) :
    d.band = s.drive.band ∧ d.count = 0 ∧ ∃ data, s.drive.table d.mode d.band = .ready d.length data := by
  induction h with
  | done | full => exact absurd hd (State.not_started rfl i d)
  | held _ _ _ _ _ _ _ _ _ _ ih => exact ih hd
  | wants _ _ _ _ _ s t _ _ _ _ ih =>
    have := ih ((s.holdForWave_started t i d).2 hd)
    rw [State.holdForWave_eq] at this
    exact this
  | starts _ _ _ _ s t j m hfree _ hmode h ih =>
    rcases hd.cases (i := j) (e := _) with rfl | hd'
    · obtain ⟨n, data, htable⟩ := PanelDrive.chooseMode_ready hmode
      have := hd.2
      rw [h.kept_start (Scheduler.freeSlot_some hfree).1] at this
      cases this
      exact ⟨rfl, rfl, data, by simp only [htable, Wave.readyLength, Option.getD_some]⟩
    · have := ih hd'
      rw [State.startIn_eq] at this
      exact this

/-- The lowest FREE slot is at or below every FREE slot. -/
theorem Scheduler.freeSlot_le {q : Scheduler} {i k : Nat} (h : q.freeSlot = some i) (hfree : q.slot k = none) :
    i ≤ k := by
  by_contra hlt
  have := List.find?_range_eq_some.1 h
  have := this.2.2 k (by omega)
  simp [hfree] at this

theorem Scheduler.freeSlot_eq_none {q : Scheduler} : q.freeSlot = none ↔ ∀ i, i < 8 → q.slot i ≠ none := by
  simp [Scheduler.freeSlot, List.find?_eq_none]

/-- With a frame in progress the drive stays, and what starts waits for the next frame (R154). -/
theorem Judges.waiting (h : Judges older entries want s t) (hf : s.drive.frame ≠ none) :
    t.drive = s.drive ∧ ∀ i d, s.Started t i d → d.enrolled = false := by
  induction h with
  | done | full => exact ⟨rfl, fun i d hd => absurd hd (State.not_started rfl i d)⟩
  | held _ _ _ _ _ _ _ _ _ _ ih => exact ih hf
  | wants _ _ _ _ _ s t _ _ _ _ ih =>
    have hdrive : s.holdForWave.drive = s.drive := s.holdForWave_rest.2.2
    obtain ⟨h1, h2⟩ := ih (by rw [hdrive]; exact hf)
    exact ⟨h1.trans hdrive, fun i d hd => h2 i d ((s.holdForWave_started t i d).2 hd)⟩
  | starts _ _ _ _ s t j m hfree _ _ h ih =>
    obtain ⟨n, hn⟩ := Option.ne_none_iff_exists'.1 hf
    have hdrive : ∀ e, (s.startIn j e).drive = s.drive := fun e => by
      rw [State.startIn_eq]
      exact PanelDrive.frame_runs hn
    obtain ⟨h1, h2⟩ := ih (by rw [hdrive]; exact hf)
    refine ⟨h1.trans (hdrive _), fun i d hd => ?_⟩
    rcases hd.cases (i := j) (e := _) with rfl | hd'
    · have := hd.2
      rw [h.kept_start (Scheduler.freeSlot_some hfree).1] at this
      cases this
      simp [hn]
    · exact h2 i d hd'

/-- With an IDLE frame timer the first slot started, the lowest of all that start, starts the frame and is enrolled
(R154). -/
theorem Judges.firstFrame (h : Judges older entries want s t) (hf : s.drive.frame = none) :
    (∀ i d, s.Started t i d → (d.enrolled = true ↔ ∀ k e, s.Started t k e → i ≤ k)) ∧
    ((∃ i d, s.Started t i d) → t.drive = { s.drive with frame := some s.drive.period }) ∧
    ((∀ i d, ¬ s.Started t i d) → t.drive = s.drive) := by
  induction h with
  | done | full =>
    exact ⟨fun i d hd => absurd hd (State.not_started rfl i d),
      fun ⟨i, d, hd⟩ => absurd hd (State.not_started rfl i d), fun _ => rfl⟩
  | held _ _ _ _ _ _ _ _ _ _ ih => exact ih hf
  | wants _ _ _ _ _ s t _ _ _ _ ih =>
    have hdrive : s.holdForWave.drive = s.drive := s.holdForWave_rest.2.2
    have := ih (by rw [hdrive]; exact hf)
    simpa only [State.holdForWave_started, hdrive] using this
  | starts _ _ e _ s t j m hfree _ _ h ih =>
    obtain ⟨hj, hjfree⟩ := Scheduler.freeSlot_some hfree
    have hfirst := h.kept_start hj
    have hdrive : (s.startIn j { e.promote s.sched with mode := m }).drive =
        { s.drive with frame := some s.drive.period } := by
      rw [State.startIn_eq]
      simp [hf]
    obtain ⟨hsame, hwait⟩ := h.waiting (by rw [hdrive]; simp)
    have hstarted : s.Started t j _ := ⟨hjfree, hfirst⟩
    refine ⟨fun i d hd => ?_, fun _ => hsame.trans hdrive, fun hnone => absurd hstarted (hnone _ _)⟩
    rcases hd.cases (i := j) (e := { e.promote s.sched with mode := m }) with rfl | hd'
    · have := hd.2
      rw [hfirst] at this
      cases this
      simp only [hf, Option.isNone_none, true_iff]
      exact fun k e hk => Scheduler.freeSlot_le hfree hk.1
    · simp only [hwait i d hd', Bool.false_eq_true, false_iff]
      intro hle
      have hij : i = j := by
        have := hle j _ hstarted
        have := Scheduler.freeSlot_le hfree hd.1
        omega
      have := hd'.1
      rw [hij, State.startIn_slot_self _ hj] at this
      cases this

/-! ### Goals -/

theorem Rect.holds_lt {r : Rect} (hr : r.onPanel) {x y : Nat} (h : r.holds x y = true) : x < 1248 := by
  obtain ⟨-, h1, -⟩ := hr
  simp only [Rect.holds, Bool.and_eq_true, decide_eq_true_eq] at h
  omega

/-- What is judged keeps the goals of the slots that drive; a started slot's goals follow its mode, and no other goal
changes (R129, R130). -/
theorem Judges.goals (h : Judges older entries want s t) (hcanon : s.Canonical)
    (hslots : ∀ i d, s.sched.slot i = some d → d.rect.onPanel) (hentries : QueueOnPanel entries) :
    (∀ x y, x < 1248 → (∀ i d, s.Started t i d → d.rect.holds x y = false) →
      t.image.goal.level x y = s.image.goal.level x y) ∧
    (∀ i d, s.sched.slot i = some d → ∀ x y, d.rect.holds x y = true →
      t.image.goal.level x y = s.image.goal.level x y) ∧
    (∀ i d, s.Started t i d → d.rect.onPanel ∧ ∀ x y, d.rect.holds x y = true →
      t.image.goal.level x y = goalLevel s.sched d.mode (s.image.target.level x y)) := by
  induction h with
  | done | full =>
    exact ⟨fun _ _ _ _ => rfl, fun _ _ _ _ _ _ => rfl, fun i d hd => absurd hd (State.not_started rfl i d)⟩
  | held _ _ _ _ _ _ _ _ _ _ ih => exact ih hcanon hslots (List.forall_mem_cons.1 hentries).2
  | wants _ _ _ _ _ s t _ _ _ _ ih =>
    have himage : s.holdForWave.image = s.image := s.holdForWave_rest.1
    have hgoal : goalLevel s.holdForWave.sched = goalLevel s.sched := by rw [State.holdForWave_eq]; rfl
    have := ih (by rw [State.holdForWave_eq]; exact hcanon) (by simpa only [s.holdForWave_slot] using hslots)
      (List.forall_mem_cons.1 hentries).2
    simpa only [State.holdForWave_started, State.holdForWave_slot, himage, hgoal] using this
  | starts older rest e _ s t j m hfree hclear _ h ih =>
    obtain ⟨hj, hjfree⟩ := Scheduler.freeSlot_some hfree
    obtain ⟨he, hrest⟩ := List.forall_mem_cons.1 hentries
    have hrect : (e.promote s.sched).rect.onPanel := Request.promote_onPanel _ he
    have hgoal : ∀ x y, x < 1248 → (s.startIn j { e.promote s.sched with mode := m }).image.goal.level x y =
        if (e.promote s.sched).rect.holds x y = true then goalLevel s.sched m (s.image.target.level x y)
        else s.image.goal.level x y := fun x y hx => by
      rw [State.startIn_eq]
      exact Plane.level_copyRect _ _ _ _ x y hcanon.1 hcanon.2.2.1 hrect.1 hrect.2.1 hrect.2.2.1 hx
    have hfirst := h.kept_start hj
    have hstarted : s.Started t j _ := ⟨hjfree, hfirst⟩
    have hslots' : ∀ i d, (s.startIn j { e.promote s.sched with mode := m }).sched.slot i = some d → d.rect.onPanel := by
      intro i d hd
      rw [State.startIn_slot] at hd
      split at hd
      · cases hd
        exact hrect
      · exact hslots i d hd
    have hcanon' : (s.startIn j { e.promote s.sched with mode := m }).Canonical := by
      rw [State.startIn_eq]
      exact ⟨hcanon.1, hcanon.2.1, Plane.copyRect_wf _ _ _ _ hcanon.1 hcanon.2.2.1, hcanon.2.2.2.1, hcanon.2.2.2.2⟩
    obtain ⟨ih1, ih2, ih3⟩ := ih hcanon' hslots' hrest
    refine ⟨fun x y hx hno => ?_, fun i d hd x y hxy => ?_, fun i d hd => ?_⟩
    · rw [ih1 x y hx fun i d hd => hno i d hd.lift, hgoal x y hx, if_neg]
      have := hno j _ hstarted
      simpa using this
    · have hx := Rect.holds_lt (hslots i d hd) hxy
      have hij : i ≠ j := by
        rintro rfl
        rw [hjfree] at hd
        cases hd
      have := ih2 i d (by rw [State.startIn_slot_other _ hij]; exact hd) x y hxy
      rw [this, hgoal x y hx, if_neg]
      intro hp
      exact Rect.not_holds_of_not_intersects
        (Scheduler.meetsDriving_eq_false (Scheduler.blocked_eq_false hclear).1 hd) x y ⟨hp, hxy⟩
    · rcases hd.cases (i := j) (e := { e.promote s.sched with mode := m }) with rfl | hd'
      · have hdd := hd.2
        rw [hfirst] at hdd
        cases hdd
        refine ⟨hrect, fun x y hxy => ?_⟩
        have hx := Rect.holds_lt hrect hxy
        rw [ih2 i _ (State.startIn_slot_self _ hj _) x y hxy, hgoal x y hx, if_pos hxy]
      · obtain ⟨h1, h2⟩ := ih3 i d hd'
        refine ⟨h1, fun x y hxy => ?_⟩
        have := h2 x y hxy
        rw [State.startIn_eq] at this
        exact this

end Sys2Proof.Machine
end

section
/-! PROOF. What a judging leaves in the queue (8.3), the fate of every entry, and the hold for want of a waveform. -/

namespace Sys2Proof.Machine

variable {older entries : List Request} {want : Bool} {s t : State}

/-! ### Entries that cannot start -/

theorem append_singleton_eq_append_cons {α : Type} {l a b : List α} {x e : α} :
    l ++ [x] = a ++ e :: b ↔ (a = l ∧ e = x ∧ b = []) ∨ ∃ b', b = b' ++ [x] ∧ l = a ++ e :: b' := by
  constructor
  · intro h
    rcases List.eq_nil_or_concat b with rfl | ⟨b', y, rfl⟩
    · obtain ⟨h1, h2⟩ := List.append_inj' h rfl
      exact .inl ⟨h1.symm, (List.cons.inj h2).1.symm, rfl⟩
    · rw [List.concat_eq_append, ← List.cons_append, ← List.append_assoc] at h
      obtain ⟨h1, h2⟩ := List.append_inj' h rfl
      cases h2
      exact .inr ⟨b', List.concat_eq_append .., h1⟩
  · rintro (⟨rfl, rfl, rfl⟩ | ⟨b', rfl, rfl⟩) <;> simp

theorem Rect.intersects_comm (a b : Rect) : a.intersects b = b.intersects a := by
  rw [Bool.eq_iff_iff]
  simp only [Rect.intersects, Bool.and_eq_true, decide_eq_true_eq]
  omega

theorem Scheduler.blocked_iff {q : Scheduler} {older : List Request} {r : Rect} :
    q.blocked older r = true ↔
      (∃ i d, q.slot i = some d ∧ r.intersects d.rect = true) ∨ ∃ o ∈ older, r.intersects o.rect = true := by
  simp only [Scheduler.blocked, Scheduler.meetsDriving, Bool.or_eq_true, List.any_eq_true, List.mem_range]
  refine or_congr ⟨fun ⟨i, _, h⟩ => ?_, fun ⟨i, d, hd, h⟩ => ⟨i, Scheduler.slot_lt hd, by simpa [hd] using h⟩⟩ .rfl
  split at h
  · next d hd => exact ⟨i, d, hd, h⟩
  · cases h

theorem Scheduler.blocked_eq_false_iff {q : Scheduler} {older : List Request} {r : Rect} :
    q.blocked older r = false ↔
      (∀ i d, q.slot i = some d → r.intersects d.rect = false) ∧ ∀ o ∈ older, r.intersects o.rect = false := by
  rw [← Bool.not_eq_true, Scheduler.blocked_iff]
  simp

theorem Scheduler.blocked_congr {q r : Scheduler} (h : r.slots = q.slots) : r.blocked = q.blocked := by
  funext older rect
  simp only [Scheduler.blocked, Scheduler.meetsDriving, Scheduler.slot, h]

/-- A slot that starts clear of an entry leaves whether the entry is blocked as it was. -/
theorem State.startIn_blocked {i : Nat} {e o : Request} {a : List Request} (hi : i < 8) (hfree : s.sched.slot i = none)
    (hclear : o.rect.intersects e.rect = false) :
    (s.startIn i e).sched.blocked a o.rect = s.sched.blocked a o.rect := by
  rw [Bool.eq_iff_iff, Scheduler.blocked_iff, Scheduler.blocked_iff]
  refine or_congr ⟨fun ⟨k, d, hd, h⟩ => ?_, fun ⟨k, d, hd, h⟩ => ⟨k, d, ?_, h⟩⟩ .rfl
  · rw [State.startIn_slot] at hd
    split at hd
    · cases hd
      rw [hclear] at h
      cases h
    · exact ⟨k, d, hd, h⟩
  · rw [State.startIn_slot_other _ _]
    · exact hd
    · rintro rfl
      rw [hfree] at hd
      cases hd

theorem State.startIn_chooseMode (i : Nat) (e : Request) : (s.startIn i e).drive.chooseMode = s.drive.chooseMode := by
  rw [State.startIn_eq]
  rfl

theorem State.holdForWave_blocked : s.holdForWave.sched.blocked = s.sched.blocked :=
  Scheduler.blocked_congr (by rw [State.holdForWave_eq])

theorem State.holdForWave_chooseMode : s.holdForWave.drive.chooseMode = s.drive.chooseMode := by
  rw [State.holdForWave_eq]

theorem Judges.chooseMode (h : Judges older entries want s t) : t.drive.chooseMode = s.drive.chooseMode := by
  rw [h.rest]
  rfl

/-- The entry meets a DRIVING slot or an older entry, or no table serves its mode (R125, R128). -/
def State.CannotStart (s : State) (older : List Request) (e : Request) : Prop :=
  s.sched.blocked older e.rect = true ∨ s.drive.chooseMode e.mode = none

/-- With a slot still FREE nothing is left that could start (R125). -/
theorem Judges.stuck (h : Judges older entries want s t) (hold : ∀ a e b, older = a ++ e :: b → s.CannotStart a e) :
    t.sched.freeSlot = none ∨ ∀ a e b, t.sched.queue = a ++ e :: b → t.CannotStart a e := by
  have snoc : ∀ {older : List Request} {e' : Request} {s : State}, s.CannotStart older e' →
      (∀ a e b, older = a ++ e :: b → s.CannotStart a e) →
      ∀ a e b, older ++ [e'] = a ++ e :: b → s.CannotStart a e := by
    intro older e' s he' hold a e b hsplit
    rcases append_singleton_eq_append_cons.1 hsplit with ⟨rfl, rfl, rfl⟩ | ⟨b', rfl, h⟩
    · exact he'
    · exact hold a e b' h
  induction h with
  | done older want s => exact .inr hold
  | full _ _ _ _ s hfull => exact .inl hfull
  | held _ _ _ _ _ _ _ _ hblocked _ ih => exact ih (snoc (.inl hblocked) hold)
  | wants _ _ _ _ _ s _ _ _ hmode _ ih =>
    refine ih fun a e b hsplit => ?_
    unfold State.CannotStart
    rw [State.holdForWave_blocked, State.holdForWave_chooseMode]
    exact snoc (.inr hmode) hold a e b hsplit
  | starts _ _ _ _ s _ i _ hfree _ _ _ ih =>
    refine ih fun a e b hsplit => ?_
    unfold State.CannotStart
    rw [State.startIn_chooseMode]
    refine (hold a e b hsplit).imp_left fun hb => ?_
    rw [Scheduler.blocked_iff] at hb ⊢
    refine hb.imp_left fun ⟨k, d, hd, hmeets⟩ => ⟨k, d, ?_, hmeets⟩
    rw [State.startIn_slot_other _ _]
    · exact hd
    · rintro rfl
      rw [(Scheduler.freeSlot_some hfree).2] at hd
      cases hd

/-! ### The hold for want of a waveform -/

/-- Some entry is held for want of a waveform: it meets nothing, and no table serves its mode (R125). -/
def State.WantsWave (s : State) (queue : List Request) : Prop :=
  ∃ a e b, queue = a ++ e :: b ∧ s.drive.chooseMode e.mode = none ∧ s.sched.blocked a e.rect = false

theorem State.wantsWave_snoc {queue : List Request} {e : Request} :
    s.WantsWave (queue ++ [e]) ↔
      s.WantsWave queue ∨ (s.drive.chooseMode e.mode = none ∧ s.sched.blocked queue e.rect = false) := by
  unfold State.WantsWave
  constructor
  · rintro ⟨a, x, b, hsplit, h⟩
    rcases append_singleton_eq_append_cons.1 hsplit with ⟨rfl, rfl, rfl⟩ | ⟨b', rfl, hq⟩
    · exact .inr h
    · exact .inl ⟨a, x, b', hq, h⟩
  · rintro (⟨a, x, b, rfl, h⟩ | h)
    · exact ⟨a, x, b ++ [e], by simp, h⟩
    · exact ⟨queue, e, [], rfl, h⟩

theorem State.holdForWave_wantsWave (queue : List Request) : s.holdForWave.WantsWave queue ↔ s.WantsWave queue := by
  unfold State.WantsWave
  rw [State.holdForWave_blocked, State.holdForWave_chooseMode]

/-- A start behind the older entries leaves their wants. -/
theorem State.startIn_wantsWave {i : Nat} {e : Request} (hfree : s.sched.freeSlot = some i)
    (hclear : s.sched.blocked older e.rect = false) : (s.startIn i e).WantsWave older ↔ s.WantsWave older := by
  unfold State.WantsWave
  rw [State.startIn_chooseMode]
  obtain ⟨hi, hnone⟩ := Scheduler.freeSlot_some hfree
  refine exists_congr fun a => exists_congr fun o => exists_congr fun b => and_congr_right fun hsplit => ?_
  rw [State.startIn_blocked hi hnone]
  rw [Rect.intersects_comm]
  exact (Scheduler.blocked_eq_false hclear).2 o (by simp [hsplit])

/-- The marker is set at the end, with a slot left FREE, exactly while an entry is held for want of a waveform. -/
theorem Judges.wave (h : Judges older entries want s t) (hmark : want = true → s.sched.waveHold = true)
    (hwant : want = true ↔ s.WantsWave older) (hfree : t.sched.freeSlot ≠ none) :
    t.sched.waveHold = true ↔ t.WantsWave t.sched.queue := by
  induction h with
  | done older want s =>
    show (want && s.sched.waveHold) = true ↔ s.WantsWave older
    rw [← hwant, Bool.and_eq_true]
    exact ⟨fun h => h.1, fun h => ⟨h, hmark h⟩⟩
  | full _ _ _ _ s hfull => exact absurd hfull hfree
  | held _ _ _ _ _ s _ _ hblocked _ ih =>
    refine ih hmark ?_ hfree
    rw [State.wantsWave_snoc, hwant]
    simp [hblocked]
  | wants _ _ _ _ _ s _ _ hclear hmode _ ih =>
    refine ih (fun _ => by rw [State.holdForWave_eq]) ?_ hfree
    rw [State.holdForWave_wantsWave, State.wantsWave_snoc]
    simp [hclear, hmode]
  | starts _ _ _ _ s _ i _ hslot hclear _ _ ih =>
    refine ih (fun h => by rw [State.startIn_eq]; exact hmark h) ?_ hfree
    rw [hwant]
    refine (State.startIn_wantsWave hslot ?_).symm
    exact hclear

/-- NO_WAVEFORM is raised exactly where the marker is newly set (R125). -/
theorem Judges.noWaveform (h : Judges older entries want s t) (hmark : want = true → s.sched.waveHold = true) :
    t.events = (if s.sched.waveHold = false ∧ t.sched.waveHold = true then (s.raise .noWaveform).events else s.events) ∧
      (want = true → t.sched.waveHold = true) := by
  induction h with
  | done older want s =>
    refine ⟨(if_neg ?_).symm, fun h => ?_⟩
    · rintro ⟨h1, h2⟩
      simp [h1] at h2
    · show (want && s.sched.waveHold) = true
      rw [h, hmark h]
      rfl
  | full _ _ _ _ s _ => exact ⟨(if_neg fun ⟨h1, h2⟩ => by simp [h1] at h2).symm, hmark⟩
  | held _ _ _ _ _ _ _ _ _ _ ih => exact ih hmark
  | wants _ _ _ _ _ s t _ _ _ _ ih =>
    obtain ⟨hev, hset⟩ := ih fun _ => by rw [State.holdForWave_eq]
    refine ⟨?_, fun _ => hset rfl⟩
    rw [hev, State.holdForWave_eq, hset rfl]
    cases s.sched.waveHold <;> simp
  | starts _ _ _ _ s _ i _ _ _ _ _ ih =>
    rw [State.startIn_eq] at ih
    exact ih hmark

/-! ### The fate of every entry -/

/-- The FREE slots from the lowest up. -/
def Scheduler.freeSlots (q : Scheduler) : List Nat := (List.range 8).filter fun i => (q.slot i).isNone

/-- A start takes the first FREE slot. -/
theorem State.startIn_freeSlots {i : Nat} (h : s.sched.freeSlot = some i) (e : Request) :
    s.sched.freeSlots = i :: (s.startIn i e).sched.freeSlots := by
  obtain ⟨_, as, bs, hsplit, hbefore⟩ := List.find?_eq_some_iff_append.1 h
  obtain ⟨hi, hnone⟩ := Scheduler.freeSlot_some h
  have hnodup : (as ++ i :: bs).Nodup := hsplit ▸ List.nodup_range
  have hother : ∀ k ∈ as ++ bs, (s.startIn i e).sched.slot k = s.sched.slot k := fun k hk => by
    refine State.startIn_slot_other _ ?_ _
    rintro rfl
    exact (List.nodup_middle.1 hnodup).notMem hk
  have hbusy : as.filter (fun k => (s.sched.slot k).isNone) = [] := by
    rw [List.filter_eq_nil_iff]
    intro k hk
    simpa [Option.isSome_iff_ne_none] using hbefore k hk
  have hsame : ∀ l : List Nat, (∀ k ∈ l, k ∈ as ++ bs) →
      l.filter (fun k => ((s.startIn i e).sched.slot k).isNone) = l.filter fun k => (s.sched.slot k).isNone :=
    fun l hl => List.filter_congr fun k hk => by rw [hother k (hl k hk)]
  unfold Scheduler.freeSlots
  rw [hsplit, List.filter_append, List.filter_append, List.filter_cons, List.filter_cons, State.startIn_slot_self _ hi,
    hsame as (fun k hk => List.mem_append_left _ hk), hsame bs (fun k hk => List.mem_append_right _ hk), hbusy, hnone]
  rfl

/-- The entries that have no slot. -/
def entriesLeft (entries : List Request) (fates : List (Option Nat)) : List Request :=
  (entries.zip fates).filterMap fun p => if p.2 = none then some p.1 else none

/-- The course of an entry that starts, by its slot. -/
def State.StartedAs (s t : State) (i : Nat) (e : Request) : Prop :=
  ∃ d, s.Started t i d ∧ d.rect = (e.promote s.sched).rect ∧ s.drive.chooseMode (e.promote s.sched).mode = some d.mode

/-- Each entry's slot, or none: those with a slot have started in it, slot by slot from the lowest FREE one, and the others
are left in order, each as it was or as its promotion makes it. -/
structure Fates (s t : State) (older entries : List Request) (fates : List (Option Nat)) : Prop where
  length : fates.length = entries.length
  slots : fates.filterMap id <+: s.sched.freeSlots
  all : ∀ i d, s.Started t i d → some i ∈ fates
  each : List.Forall₂ (fun e f => ∀ i, f = some i → s.StartedAs t i e) entries fates
  queue : ∃ left, t.sched.queue = older ++ left ∧
    List.Forall₂ (fun e left : Request => left = e ∨ left = e.promote s.sched) (entriesLeft entries fates) left

theorem fates_of_none (h : t.sched.slots = s.sched.slots) (hq : t.sched.queue = older ++ entries) :
    Fates s t older entries (entries.map fun _ => none) where
  length := by simp
  slots := by simp
  all i d hd := absurd hd (State.not_started h i d)
  each := by
    rw [List.forall₂_map_right_iff]
    exact List.forall₂_same.2 fun _ _ _ h => by cases h
  queue := by
    refine ⟨entries, hq, ?_⟩
    have : entriesLeft entries (entries.map fun _ => none) = entries := by
      clear hq
      induction entries with
      | nil => rfl
      | cons e rest ih => exact congrArg (e :: ·) ih
    rw [this]
    exact List.forall₂_same.2 fun _ _ => .inl rfl

/-- An entry that is left goes behind the older ones. -/
theorem Fates.left {e e' : Request} {rest : List Request} {fates : List (Option Nat)} {u : State}
    (h : Fates u t (older ++ [e']) rest fates) (he : e' = e ∨ e' = e.promote s.sched) (hslots : u.sched.slots = s.sched.slots)
    (hpromote : ∀ e : Request, e.promote u.sched = e.promote s.sched) (hmode : u.drive.chooseMode = s.drive.chooseMode) :
    Fates s t older (e :: rest) (none :: fates) := by
  have hslot : u.sched.slot = s.sched.slot := by funext i; simp only [Scheduler.slot, hslots]
  have hstarted : ∀ i d, u.Started t i d ↔ s.Started t i d := fun i d => by
    unfold State.Started
    rw [hslot]
  obtain ⟨hlength, hsl, hall, heach, left, hq, hleft⟩ := h
  refine ⟨by simp [hlength], ?_, fun i d hd => List.mem_cons_of_mem _ (hall i d ((hstarted i d).2 hd)), ?_, e' :: left,
    by rw [hq]; simp, ?_⟩
  · unfold Scheduler.freeSlots at hsl ⊢
    rw [hslot] at hsl
    exact hsl
  · refine .cons (fun i h => by cases h) (heach.imp fun e f hf i hi => ?_)
    obtain ⟨d, h1, h2, h3⟩ := hf i hi
    rw [hpromote] at h2 h3
    rw [hmode] at h3
    exact ⟨d, (hstarted i d).1 h1, h2, h3⟩
  · simp only [hpromote] at hleft
    exact .cons he hleft

theorem Judges.fates (h : Judges older entries want s t) : ∃ fates, Fates s t older entries fates := by
  induction h with
  | done older want s => exact ⟨_, fates_of_none rfl (by simp)⟩
  | full older rest e want s hfull => exact ⟨_, fates_of_none rfl rfl⟩
  | held _ _ _ _ _ _ _ he _ _ ih =>
    obtain ⟨fates, h⟩ := ih
    exact ⟨_, h.left he rfl (fun _ => rfl) rfl⟩
  | wants _ _ _ _ _ s _ he _ _ _ ih =>
    obtain ⟨fates, h⟩ := ih
    refine ⟨_, h.left he ?_ (fun e => ?_) State.holdForWave_chooseMode⟩
    · rw [State.holdForWave_eq]
    · rw [State.holdForWave_eq]
      rfl
  | starts older rest e _ s t i m hfree hclear hmode h ih =>
    obtain ⟨hi, hnone⟩ := Scheduler.freeSlot_some hfree
    obtain ⟨fates, hlength, hsl, hall, heach, hq⟩ := ih
    have hpromote : ∀ f : Request, f.promote (s.startIn i { e.promote s.sched with mode := m }).sched = f.promote s.sched :=
      fun f => by rw [State.startIn_eq]; rfl
    refine ⟨some i :: fates, by simp [hlength], ?_, fun k d hd => ?_, .cons ?_ (heach.imp fun f g hg k hk => ?_), ?_⟩
    · rw [State.startIn_freeSlots hfree]
      exact List.cons_prefix_cons.2 ⟨rfl, hsl⟩
    · rcases hd.cases (i := i) (e := { e.promote s.sched with mode := m }) with rfl | hd'
      · exact List.mem_cons_self ..
      · exact List.mem_cons_of_mem _ (hall k d hd')
    · rintro k hk
      cases hk
      exact ⟨_, ⟨hnone, h.kept_start hi⟩, rfl, hmode⟩
    · obtain ⟨d, h1, h2, h3⟩ := hg k hk
      rw [hpromote] at h2 h3
      rw [State.startIn_chooseMode] at h3
      exact ⟨d, h1.lift, h2, h3⟩
    · simp only [hpromote] at hq
      exact hq

theorem Fates.queue_length {fates : List (Option Nat)} (h : Fates s t older entries fates) :
    t.sched.queue.length ≤ older.length + entries.length := by
  obtain ⟨left, hq, hleft⟩ := h.queue
  have : (entriesLeft entries fates).length ≤ entries.length :=
    (List.length_filterMap_le _ _).trans (by simp [List.length_zip])
  rw [hq, List.length_append, ← hleft.length_eq]
  omega

/-! ### A level under a mode -/

theorem goalLevel_val (q : Scheduler) (m : Mode) (v : Level) :
    (goalLevel q m v).val =
      let plain : Nat := if q.blank = true then 15 else if q.inverted = true then 15 - v.val else v.val
      if m = .fast then (if 8 ≤ plain then 15 else 0) else plain := by
  have hwhite : ∀ v : Level, (white - v).val = 15 - v.val := by decide
  have hmode : ∀ p : Level, (if m = .fast then (if 8 ≤ p.val then white else 0) else p : Level).val =
      if m = .fast then (if 8 ≤ p.val then 15 else 0) else p.val := by
    intro p
    split_ifs <;> rfl
  unfold goalLevel
  rw [hmode]
  cases q.blank <;> cases q.inverted <;> simp [hwhite, white]

/-- Settles O53, from the course of the judging. -/
theorem scanLeavesNothingStartable : Obligations.ScanLeavesNothingStartable := by
  intro s hcanon hsched hrects
  have h : Judges [] s.sched.queue false s s.judgeEntries := scanEntries_judges ..
  obtain ⟨hout, hkept, hstarted⟩ := h.goals hcanon hrects.2.1 hrects.1
  obtain ⟨fates, hf⟩ := h.fates
  have hmark : false = true → s.sched.waveHold = true := nofun
  have hnone : (∃ i, i < 8 ∧ s.judgeEntries.sched.slot i = none) → s.judgeEntries.sched.freeSlot ≠ none := by
    rintro ⟨i, hi, hfree⟩ hfull
    exact Scheduler.freeSlot_eq_none.1 hfull i hi hfree
  refine ⟨?_, by simpa using hf.queue_length, ⟨fates, hf.length, hf.slots, fun i d hd => hf.all i d hd.2, ?_, ?_⟩,
    (h.noWaveform hmark).1, fun hfree => ?_, fun i d hd => h.kept hd, fun hframe => ?_, fun hframe => ?_, ?_, ?_, ?_⟩
  · refine (h.stuck (by simp)).imp Scheduler.freeSlot_eq_none.1 fun hstuck a e b hsplit => ?_
    rcases hstuck a e b hsplit with hb | hm
    · rcases Scheduler.blocked_iff.1 hb with hb | hb
      · exact .inl hb
      · exact .inr (.inl hb)
    · exact .inr (.inr hm)
  · intro k i e hk he
    obtain ⟨hkq, rfl⟩ := List.getElem?_eq_some_iff.1 he
    obtain ⟨hkf, hki⟩ := List.getElem?_eq_some_iff.1 hk
    obtain ⟨d, h1, h2, h3⟩ := (List.forall₂_iff_get.1 hf.each).2 k hkq hkf i hki
    exact ⟨d, ⟨Scheduler.slot_lt h1.2, h1⟩, h2, h3⟩
  · obtain ⟨left, hq, hleft⟩ := hf.queue
    rw [hq]
    exact hleft
  · rw [h.wave hmark (by simp [State.WantsWave]) (hnone hfree)]
    simp only [State.WantsWave, Scheduler.blocked_eq_false_iff]
  · obtain ⟨h1, h2⟩ := h.waiting hframe
    exact ⟨h1, fun i d hd => h2 i d hd.2⟩
  · obtain ⟨h1, h2, h3⟩ := h.firstFrame hframe
    refine ⟨fun i d hd => ?_, fun ⟨i, d, hd⟩ => h2 ⟨i, d, hd.2⟩, fun hno => h3 fun i d hd => ?_⟩
    · rw [h1 i d hd.2]
      exact ⟨fun hle k e hk => hle k e hk.2, fun hle k e hk => hle k e ⟨Scheduler.slot_lt hk.2, hk⟩⟩
    · exact hno i d ⟨Scheduler.slot_lt hd.2, hd⟩
  · rintro i d ⟨-, hd⟩
    obtain ⟨h1, h2, h3⟩ := h.started_fields hd
    refine ⟨h1, h2, h3, fun x y hxy => ?_⟩
    rw [(hstarted i d hd).2 x y hxy]
    exact goalLevel_val ..
  · intro x y hx hno
    exact hout x y hx fun i d hd => hno i d ⟨Scheduler.slot_lt hd.2, hd⟩
  · have hp := s.judgeEntries_panelOnly
    exact ⟨hp.target, s.judgeEntries_current, hp.lines, hp.marks, hp.renderer, hp.port, s.judgeEntries_supply, hp.link⟩

end Sys2Proof.Machine
end

section
/-! PROOF. The scheduler's functions branch by branch (8.1, 8.3, 8.4, 10.1). -/

namespace Sys2Proof.Machine

variable {s : State}

/-! ### Asking for power -/

/-- The supply on its way up (R160). -/
def Supply.rise (p : Supply) : Supply := { p with state := .rising, powerUp := some p.settings.timeout }

theorem State.askPower_of_low (h : s.supply.pgood = false) : s.askPower = { s with supply := s.supply.rise } :=
  if_neg (by simp [h])

theorem State.askPower_of_filter (h : s.supply.pgood = true) (hf : s.supply.settings.filterTime ≠ 0) :
    s.askPower = { s with supply := { s.supply.rise with filter := some s.supply.settings.filterTime } } :=
  (if_pos h).trans (if_neg hf)

theorem State.askPower_of_ready (h : s.supply.pgood = true) (hf : s.supply.settings.filterTime = 0) :
    s.askPower = ({ s with supply := s.supply.rise.reachOn } : State).judgeEntries :=
  (if_pos h).trans (if_pos hf)

/-! ### A scan -/

/-- The scan goes on past the hold for temperature (R124). -/
def State.cool (s : State) : State := { s with sched := { s.sched with tempHold := false } }

theorem State.scan_of_empty (h : s.sched.queue = []) :
    s.scan = { s with sched := { s.sched with tempHold := false, waveHold := false } } :=
  if_pos (by rw [h]; rfl)

theorem State.scan_of_nonempty (h : s.sched.queue ≠ []) : s.scan =
    if !s.drive.usable then
      if s.sched.tempHold then s else { s with sched := { s.sched with tempHold := true } }.raise .tempRange
    else
      match s.cool.supply.state with
      | .on => s.cool.judgeEntries
      | .off => s.cool.askPower
      | .rising => s.cool
      | .fault => s.cool := if_neg (by simpa using h)

theorem State.scan_of_held (h : s.sched.queue ≠ []) (hu : s.drive.usable = false) (ht : s.sched.tempHold = true) :
    s.scan = s := by simp [State.scan_of_nonempty h, hu, ht]

theorem State.scan_of_unusable (h : s.sched.queue ≠ []) (hu : s.drive.usable = false) (ht : s.sched.tempHold = false) :
    s.scan = ({ s with sched := { s.sched with tempHold := true } } : State).raise .tempRange := by
  simp [State.scan_of_nonempty h, hu, ht]

theorem State.scan_of_on (h : s.sched.queue ≠ []) (hu : s.drive.usable = true) (hs : s.supply.state = .on) :
    s.scan = s.cool.judgeEntries := by simp [State.scan_of_nonempty h, hu, State.cool, hs]

theorem State.scan_of_off (h : s.sched.queue ≠ []) (hu : s.drive.usable = true) (hs : s.supply.state = .off) :
    s.scan = s.cool.askPower := by simp [State.scan_of_nonempty h, hu, State.cool, hs]

theorem State.scan_of_waiting (h : s.sched.queue ≠ []) (hu : s.drive.usable = true)
    (hs : s.supply.state = .rising ∨ s.supply.state = .fault) : s.scan = s.cool := by
  rcases hs with hs | hs <;> simp [State.scan_of_nonempty h, hu, State.cool, hs]

/-! ### Judging an entry -/

section
variable {older rest : List Request} {e : Request} {want : Bool}

theorem scanEntries_full (h : s.sched.freeSlot = none) :
    scanEntries older (e :: rest) want s = { s with sched := { s.sched with queue := older ++ e :: rest } } := by
  simp only [scanEntries, h]

variable {i : Nat} (hi : s.sched.freeSlot = some i)
include hi

theorem scanEntries_blocked (hb : s.sched.blocked older e.rect = true) :
    scanEntries older (e :: rest) want s = scanEntries (older ++ [e]) rest want s := by
  simp only [scanEntries, hi, hb, if_true]

theorem scanEntries_wants (hb : s.sched.blocked older e.rect = false) (hm : s.drive.chooseMode e.mode = none) :
    scanEntries older (e :: rest) want s = scanEntries (older ++ [e]) rest true s.holdForWave := by
  simp only [scanEntries, hi, hb, hm, Bool.false_eq_true, if_false, Option.isNone_none, if_true]

variable (hb : s.sched.blocked older e.rect = false) (hm : ¬ s.drive.chooseMode e.mode = none)
include hb hm

theorem scanEntries_far (hr : (e.promote s.sched).rect ≠ e.rect)
    (hfar : s.sched.blocked older (e.promote s.sched).rect = true) :
    scanEntries older (e :: rest) want s = scanEntries (older ++ [e.promote s.sched]) rest want s := by
  rw [← Option.isNone_iff_eq_none] at hm
  simp only [scanEntries, hi, hb, Bool.false_eq_true, if_false, if_neg hm, State.latch, if_pos (And.intro hr hfar)]

variable (hfar : ¬ ((e.promote s.sched).rect ≠ e.rect ∧ s.sched.blocked older (e.promote s.sched).rect = true))
include hfar

theorem scanEntries_promoted_wants (hp : s.drive.chooseMode (e.promote s.sched).mode = none) :
    scanEntries older (e :: rest) want s = scanEntries (older ++ [e.promote s.sched]) rest true s.holdForWave := by
  rw [← Option.isNone_iff_eq_none] at hm
  simp only [scanEntries, hi, hb, Bool.false_eq_true, if_false, if_neg hm, State.latch, if_neg hfar, hp]

theorem scanEntries_starts {m : Mode} (hp : s.drive.chooseMode (e.promote s.sched).mode = some m) :
    scanEntries older (e :: rest) want s = scanEntries older rest want (s.startIn i { e.promote s.sched with mode := m }) := by
  rw [← Option.isNone_iff_eq_none] at hm
  simp only [scanEntries, hi, hb, Bool.false_eq_true, if_false, if_neg hm, State.latch, if_neg hfar, hp]

end

/-! ### A request -/

/-- The request does not reach the queue while BLANK is on (R118). -/
def State.Discards (s : State) (r : Request) : Prop := s.sched.blank = true ∧ (r.origin = .render ∨ r.origin = .window)

theorem State.post_of_discards {r : Request} (h : s.Discards r) : s.post r = s := if_pos h

theorem State.post_of_not_discards {r : Request} (h : ¬ s.Discards r) : s.post r = (s.takeRequest r).cancelQuiet.scan :=
  if_neg h

theorem State.takeRequest_of_merges {r : Request} {q : List Request} (h : mergeYoungest r s.sched.queue = some q) :
    s.takeRequest r = { s with sched := { s.sched with queue := q } } := by
  unfold State.takeRequest
  rw [h]

theorem State.takeRequest_of_room {r : Request} (h : mergeYoungest r s.sched.queue = none)
    (hlen : s.sched.queue.length < 16) :
    s.takeRequest r = { s with sched := { s.sched with queue := s.sched.queue ++ [r] } } := by
  unfold State.takeRequest
  rw [h]
  exact if_pos hlen

theorem State.takeRequest_of_full {r : Request} (h : mergeYoungest r s.sched.queue = none)
    (hlen : 16 ≤ s.sched.queue.length) : s.takeRequest r =
      ({ s with sched := { s.sched with queue := squeezeYoungest r s.sched.queue } } : State).raise .queueSqueeze := by
  unfold State.takeRequest
  rw [h]
  exact if_neg (Nat.not_lt.2 hlen)

end Sys2Proof.Machine
end

section
/-! PROOF. What a row can do to the goals and to the slots outside a frame end (8.4): slots start, and nothing else of
theirs changes. -/

namespace Sys2Proof.Machine

open Relation (ReflTransGen)

/-! ### Starts, over a chain of changes -/

/-- From `s` to `t` slots start and none ends: what drove drives on with its goals, what has started waits at count 0, and
the goals change under what has started alone. -/
structure State.Latches (s t : State) : Prop where
  kept : ∀ i d, s.sched.slot i = some d → t.sched.slot i = some d
  fresh : ∀ i d, s.Started t i d → d.count = 0 ∧ (s.drive.frame ≠ none → d.enrolled = false)
  frame : s.drive.frame ≠ none → t.drive.frame = s.drive.frame
  goal : ∀ x y, x < 1248 → t.image.goal.level x y ≠ s.image.goal.level x y →
    ∃ i d, s.Started t i d ∧ d.rect.holds x y = true
  goalKept : ∀ i d, s.sched.slot i = some d → ∀ x y, d.rect.holds x y = true →
    t.image.goal.level x y = s.image.goal.level x y
  current : t.image.current = s.image.current
  canonical : t.Canonical
  rects : t.RectsOnPanel

variable {s t u : State}

theorem State.Latches.trans (h : s.Latches t) (k : t.Latches u) : s.Latches u where
  kept i d hd := k.kept i d (h.kept i d hd)
  fresh i d hd := by
    rcases hi : t.sched.slot i with _ | e
    · obtain ⟨h1, h2⟩ := k.fresh i d ⟨hi, hd.2⟩
      exact ⟨h1, fun hf => h2 (by rw [h.frame hf]; exact hf)⟩
    · have := k.kept i e hi
      rw [hd.2] at this
      cases this
      exact h.fresh i d ⟨hd.1, hi⟩
  frame hf := (k.frame (by rw [h.frame hf]; exact hf)).trans (h.frame hf)
  goal x y hx hne := by
    by_cases heq : u.image.goal.level x y = t.image.goal.level x y
    · obtain ⟨i, d, hd, hxy⟩ := h.goal x y hx (heq ▸ hne)
      exact ⟨i, d, ⟨hd.1, k.kept i d hd.2⟩, hxy⟩
    · obtain ⟨i, d, hd, hxy⟩ := k.goal x y hx heq
      refine ⟨i, d, ⟨?_, hd.2⟩, hxy⟩
      by_contra hi
      obtain ⟨e, he⟩ := Option.ne_none_iff_exists'.1 hi
      have := hd.1
      rw [h.kept i e he] at this
      cases this
  goalKept i d hd x y hxy := (k.goalKept i d (h.kept i d hd) x y hxy).trans (h.goalKept i d hd x y hxy)
  current := k.current.trans h.current
  canonical := k.canonical
  rects := k.rects

/-- Where slots, frame timer, goals and current plane stay, nothing starts. -/
theorem State.Latches.of_same (hslots : t.sched.slots = s.sched.slots) (hframe : t.drive.frame = s.drive.frame)
    (hgoal : t.image.goal = s.image.goal) (hcurrent : t.image.current = s.image.current) (hcanon : t.Canonical)
    (hrects : t.RectsOnPanel) : s.Latches t where
  kept i d hd := by
    rw [Scheduler.slot, hslots]
    exact hd
  fresh i d hd := absurd hd (State.not_started hslots i d)
  frame _ := hframe
  goal x y _ hne := absurd (by rw [hgoal]) hne
  goalKept i d _ x y _ := by rw [hgoal]
  current := hcurrent
  canonical := hcanon
  rects := hrects

theorem State.Latches.refl (hcanon : s.Canonical) (hrects : s.RectsOnPanel) : s.Latches s :=
  .of_same rfl rfl rfl rfl hcanon hrects

/-- A start is one. -/
theorem State.startIn_latches {i : Nat} {e : Request} (hi : i < 8) (hfree : s.sched.slot i = none)
    (hclear : s.sched.meetsDriving e.rect = false) (hrect : e.rect.onPanel) (hcanon : s.Canonical) (hrects : s.RectsOnPanel)
    (hcanon' : (s.startIn i e).Canonical) (hrects' : (s.startIn i e).RectsOnPanel) : s.Latches (s.startIn i e) := by
  have hgoal : ∀ x y, x < 1248 → (s.startIn i e).image.goal.level x y =
      if e.rect.holds x y = true then goalLevel s.sched e.mode (s.image.target.level x y)
      else s.image.goal.level x y := fun x y hx => by
    rw [State.startIn_eq]
    exact Plane.level_copyRect _ _ _ _ x y hcanon.1 hcanon.2.2.1 hrect.1 hrect.2.1 hrect.2.2.1 hx
  have hother : ∀ k d, s.sched.slot k = some d → k ≠ i := by
    rintro k d hd rfl
    rw [hfree] at hd
    cases hd
  refine ⟨fun k d hd => ?_, fun k d hd => ?_, fun hf => ?_, fun x y hx hne => ?_, fun k d hd x y hxy => ?_, ?_, hcanon',
    hrects'⟩
  · rw [State.startIn_slot_other _ (hother k d hd)]
    exact hd
  · obtain ⟨hnone, hd⟩ := hd
    rw [State.startIn_slot] at hd
    split at hd
    · cases hd
      exact ⟨rfl, fun hf => by simpa [Option.isSome_iff_ne_none] using hf⟩
    · rw [hnone] at hd
      cases hd
  · obtain ⟨n, hn⟩ := Option.ne_none_iff_exists'.1 hf
    rw [State.startIn_eq]
    simp [hn]
  · refine ⟨i, _, ⟨hfree, s.startIn_slot_self hi e⟩, ?_⟩
    by_contra hout
    exact hne (by rw [hgoal x y hx, if_neg hout])
  · rw [hgoal x y (Rect.holds_lt (hrects.2.1 k d hd) hxy), if_neg]
    intro he
    exact Rect.not_holds_of_not_intersects (Scheduler.meetsDriving_eq_false hclear hd) x y ⟨he, hxy⟩
  · rw [State.startIn_eq]

/-- An elementary change of a row that ends no slot. -/
theorem State.Move.latches {c : Instr} (h : s.Move c t) (hc : c ≠ .frameEnd) (ha : ¬ AbortsSlots c) (hcanon : s.Canonical)
    (hrects : s.RectsOnPanel) : s.Latches t := by
  have hcanon' := canonical_keptLaw.move c s t h hcanon
  have hrects' := rectsOnPanel_keptLaw.move c s t h hrects
  cases h with
  | panel _ hp =>
    cases hp with
    | start i e hi hfree _ _ hclear hrect =>
      exact State.startIn_latches hi hfree hclear (hrect hrects) hcanon hrects hcanon' hrects'
    | drive d hf _ => exact .of_same rfl hf rfl rfl hcanon' hrects'
    | complete _ _ h => exact absurd h hc
    | slot _ _ _ h => exact absurd h hc
    | frame _ h => exact absurd h hc
    | abort _ _ h => exact absurd h ha
    | events | holds | display | coarse | settle | queue | supply | driven =>
      exact .of_same rfl rfl rfl rfl hcanon' hrects'
  | link | taking | faces | page | marks | pixel | port | power => exact .of_same rfl rfl rfl rfl hcanon' hrects'

theorem State.Moves.latches {c : Instr} (h : s.Moves c t) (hc : c ≠ .frameEnd) (ha : ¬ AbortsSlots c) (hcanon : s.Canonical)
    (hrects : s.RectsOnPanel) : s.Latches t := by
  induction h with
  | refl => exact .refl hcanon hrects
  | tail _ hm ih => exact ih.trans (hm.latches hc ha ih.canonical ih.rects)

theorem not_abortsSlots_wake : ¬ AbortsSlots .wake := by
  rintro (h | h | h) <;> cases h

theorem State.PanelMoves.latches (h : s.PanelMoves .wake t) (hcanon : s.Canonical) (hrects : s.RectsOnPanel) :
    s.Latches t :=
  h.moves.latches (by simp) not_abortsSlots_wake hcanon hrects

/-! ### The two other planes -/

theorem State.Moves.current {c : Instr} (h : s.Moves c t) (hc : c ≠ .frameEnd) : t.image.current = s.image.current := by
  induction h with
  | refl => rfl
  | tail _ hm ih =>
    cases hm with
    | panel _ hp =>
      cases hp with
      | complete _ _ h => exact absurd h hc
      | events | holds | display | coarse | settle | queue | supply | drive | start | slot | driven | frame | abort =>
        exact ih
    | link | taking | faces | page | marks | pixel | port | power => exact ih

theorem State.Moves.target {c : Instr} (h : s.Moves c t) (hc : ¬ WritesPixels c) : t.image.target = s.image.target := by
  induction h with
  | refl => rfl
  | tail _ hm ih =>
    cases hm with
    | panel _ hp => exact hp.panelOnly.target.trans ih
    | pixel _ _ _ _ h => exact absurd h hc
    | link | taking | faces | page | marks | port | power => exact ih

/-! ### A supply that fails -/

/-- A scan in FAULT starts nothing. -/
theorem State.scan_image_of_fault (h : s.supply.state = .fault) : s.scan.image = s.image := by
  unfold State.scan
  split
  · rfl
  · split
    · split <;> rfl
    · simp only [h]

theorem State.enterFault_image (s : State) : s.enterFault.image = s.image := by
  by_cases h : s.sched.repairs = []
  · simp only [State.enterFault, State.abortSlots, State.raise_sched, h]
    rfl
  · obtain ⟨q, e, heq, -⟩ := State.abortSlots_eq (({ s with
        supply := { s.supply with state := .fault, powerUp := none, filter := none, idle := none } } : State).raise
        .supplyFault) h
    rw [State.enterFault, heq, State.scan_image_of_fault]
    · rfl
    · rfl

/-- A row at which the supply can fail starts slots, or aborts them with every goal as it was. -/
theorem exec_abort_goal {c : Instr} (ha : AbortsSlots c) (hx : exec c s = .next t) (hcanon : s.Canonical)
    (hrects : s.RectsOnPanel) : s.Latches t ∨ t.image.goal = s.image.goal := by
  rcases ha with rfl | rfl | rfl
  · obtain rfl : s.pgoodFalls = t := Host.Outcome.next.inj hx
    unfold State.pgoodFalls
    split
    · exact .inr rfl
    · simp only
      split
      · split
        · exact .inr (congrArg ImageMemory.goal (State.enterFault_image _))
        · exact .inr rfl
      · exact .inr rfl
      · exact .inr rfl
      · exact .inr rfl
  · obtain rfl : s.filterExpires = t := Host.Outcome.next.inj hx
    unfold State.filterExpires
    split
    · exact .inr rfl
    · split
      · exact .inl ((State.supplyOn_moves .wake s).latches hcanon hrects)
      · exact .inr (congrArg ImageMemory.goal (State.enterFault_image _))
      · exact .inr rfl
      · exact .inr rfl
  · obtain rfl : s.powerUpExpires = t := Host.Outcome.next.inj hx
    unfold State.powerUpExpires
    split
    · exact .inr (congrArg ImageMemory.goal (State.enterFault_image _))
    · exact .inr rfl

/-- Outside power-on and a frame end a row starts slots, or leaves every goal as it was. -/
theorem exec_goal {c : Instr} (hx : exec c s = .next t) (hpower : c ≠ .powerOn) (hc : c ≠ .frameEnd) (hcanon : s.Canonical)
    (hrects : s.RectsOnPanel) : s.Latches t ∨ t.image.goal = s.image.goal := by
  by_cases ha : AbortsSlots c
  · exact exec_abort_goal ha hx hcanon hrects
  · cases exec_reaches_of hx with
    | moves _ hm => exact .inl (hm.latches hc ha hcanon hrects)
    | powerOn h => exact absurd h hpower
    | pinReset => exact .inr rfl
    | resetCommand u hm => exact .inr rfl

end Sys2Proof.Machine
end

section
/-! PROOF. A frame end slot by slot (9.4): which slots it drives, completes and enrols, and what that leaves of the planes and
of the drive port. -/

namespace Sys2Proof.Machine

open Relation (ReflTransGen)

/-! ### The drive port stands apart from the scheduler -/

/-- The state with another record of the drive port. -/
def State.withDriven (p : Points Drive) (s : State) : State := { s with drive := { s.drive with driven := p } }

variable (p : Points Drive)

theorem State.startIn_withDriven (i : Nat) (e : Request) (s : State) :
    (s.withDriven p).startIn i e = (s.startIn i e).withDriven p := by
  simp only [State.startIn_eq]
  rfl

theorem State.holdForWave_withDriven (s : State) : (s.withDriven p).holdForWave = s.holdForWave.withDriven p := by
  simp only [State.holdForWave_eq]
  rfl

theorem scanEntries_withDriven (entries older : List Request) (want : Bool) (s : State) :
    scanEntries older entries want (s.withDriven p) = (scanEntries older entries want s).withDriven p := by
  induction entries generalizing older want s with
  | nil => rfl
  | cons e rest ih =>
    have held : ∀ e', scanEntries (older ++ [e']) rest true (s.withDriven p).holdForWave =
        (scanEntries (older ++ [e']) rest true s.holdForWave).withDriven p := fun e' => by
      rw [State.holdForWave_withDriven]
      exact ih ..
    rcases hi : s.sched.freeSlot with _ | i
    · rw [scanEntries_full hi, scanEntries_full (s := s.withDriven p) hi]
      rfl
    rcases hb : s.sched.blocked older e.rect with _ | _
    swap
    · rw [scanEntries_blocked hi hb, scanEntries_blocked (s := s.withDriven p) hi hb, ih]
    by_cases hm : s.drive.chooseMode e.mode = none
    · rw [scanEntries_wants hi hb hm, scanEntries_wants (s := s.withDriven p) hi hb hm, held]
    by_cases hfar : (e.promote s.sched).rect ≠ e.rect ∧ s.sched.blocked older (e.promote s.sched).rect = true
    · rw [scanEntries_far hi hb hm hfar.1 hfar.2, scanEntries_far (s := s.withDriven p) hi hb hm hfar.1 hfar.2]
      exact ih ..
    rcases hp : s.drive.chooseMode (e.promote s.sched).mode with _ | m
    · rw [scanEntries_promoted_wants hi hb hm hfar hp,
        scanEntries_promoted_wants (s := s.withDriven p) hi hb hm hfar hp]
      exact held _
    · rw [scanEntries_starts hi hb hm hfar hp, scanEntries_starts (s := s.withDriven p) hi hb hm hfar hp,
        State.startIn_withDriven]
      exact ih ..

theorem State.judgeEntries_withDriven (s : State) : (s.withDriven p).judgeEntries = s.judgeEntries.withDriven p :=
  scanEntries_withDriven ..

theorem State.askPower_withDriven (s : State) : (s.withDriven p).askPower = s.askPower.withDriven p := by
  rcases hg : s.supply.pgood with _ | _
  · rw [State.askPower_of_low hg, State.askPower_of_low (s := s.withDriven p) hg]
    rfl
  · by_cases hf : s.supply.settings.filterTime = 0
    · rw [State.askPower_of_ready hg hf, State.askPower_of_ready (s := s.withDriven p) hg hf]
      exact State.judgeEntries_withDriven p { s with supply := s.supply.rise.reachOn }
    · rw [State.askPower_of_filter hg hf, State.askPower_of_filter (s := s.withDriven p) hg hf]
      rfl

theorem State.scan_withDriven (s : State) : (s.withDriven p).scan = s.scan.withDriven p := by
  by_cases hq : s.sched.queue = []
  · rw [State.scan_of_empty hq, State.scan_of_empty (s := s.withDriven p) hq]
    rfl
  rcases hu : s.drive.usable with _ | _
  · rcases ht : s.sched.tempHold with _ | _
    · rw [State.scan_of_unusable hq hu ht, State.scan_of_unusable (s := s.withDriven p) hq hu ht]
      rfl
    · rw [State.scan_of_held hq hu ht, State.scan_of_held (s := s.withDriven p) hq hu ht]
  have waiting : s.supply.state = .rising ∨ s.supply.state = .fault → (s.withDriven p).scan = s.scan.withDriven p :=
    fun hs => by
      rw [State.scan_of_waiting hq hu hs, State.scan_of_waiting (s := s.withDriven p) hq hu hs]
      rfl
  cases hs : s.supply.state with
  | on =>
    rw [State.scan_of_on hq hu hs, State.scan_of_on (s := s.withDriven p) hq hu hs]
    exact State.judgeEntries_withDriven p s.cool
  | off =>
    rw [State.scan_of_off hq hu hs, State.scan_of_off (s := s.withDriven p) hq hu hs]
    exact State.askPower_withDriven p s.cool
  | rising => exact waiting (.inl hs)
  | fault => exact waiting (.inr hs)

theorem State.takeRequest_withDriven (r : Request) (s : State) :
    (s.withDriven p).takeRequest r = (s.takeRequest r).withDriven p := by
  rcases h : mergeYoungest r s.sched.queue with _ | q
  · rcases Nat.lt_or_ge s.sched.queue.length 16 with hlen | hlen
    · rw [State.takeRequest_of_room h hlen, State.takeRequest_of_room (s := s.withDriven p) h hlen]
      rfl
    · rw [State.takeRequest_of_full h hlen, State.takeRequest_of_full (s := s.withDriven p) h hlen]
      rfl
  · rw [State.takeRequest_of_merges h, State.takeRequest_of_merges (s := s.withDriven p) h]
    rfl

theorem State.post_withDriven (r : Request) (s : State) : (s.withDriven p).post r = (s.post r).withDriven p := by
  by_cases h : s.Discards r
  · rw [State.post_of_discards h, State.post_of_discards (s := s.withDriven p) h]
  · rw [State.post_of_not_discards h, State.post_of_not_discards (s := s.withDriven p) h, State.takeRequest_withDriven]
    exact State.scan_withDriven p (s.takeRequest r).cancelQuiet

theorem State.tidyZone_withDriven (z : Nat) (s : State) : (s.withDriven p).tidyZone z = (s.tidyZone z).withDriven p := by
  by_cases h : look s.sched.coarse z false = true
  · exact (if_pos h).trans ((State.post_withDriven p _
      { s with sched := { s.sched with coarse := put s.sched.coarse z false } }).trans
      (congrArg (State.withDriven p) (if_pos h).symm))
  · exact (if_neg h).trans (congrArg (State.withDriven p) (if_neg h).symm)

/-- What every step of a fold leaves aside, the fold leaves aside. -/
theorem foldl_withDriven {f : State → Nat → State} (hf : ∀ s i, f (s.withDriven p) i = (f s i).withDriven p)
    (l : List Nat) (s : State) : l.foldl f (s.withDriven p) = (l.foldl f s).withDriven p := by
  induction l generalizing s with
  | nil => rfl
  | cons i rest ih => rw [List.foldl_cons, List.foldl_cons, hf, ih]

/-- The state in which the settle timer has reported the panel quiet (R135, R163). -/
def State.reportQuiet (s : State) : State :=
  { ({ s with sched := { s.sched with settle := none } } : State).raise .panelQuiet with supply := s.supply.startIdle }

theorem State.settleExpires_eq (s : State) : s.settleExpires =
    if s.sched.settings.tidy = true then (List.range 8).foldl State.tidyZone s.reportQuiet else s.reportQuiet := rfl

theorem State.settleExpires_withDriven (s : State) : (s.withDriven p).settleExpires = s.settleExpires.withDriven p := by
  by_cases h : s.sched.settings.tidy = true
  · rw [State.settleExpires_eq, State.settleExpires_eq, if_pos h, if_pos (by exact h)]
    exact foldl_withDriven p (fun s z => State.tidyZone_withDriven p z s) _ s.reportQuiet
  · rw [State.settleExpires_eq, State.settleExpires_eq, if_neg h, if_neg (by exact h)]
    rfl

theorem State.startSettle_withDriven (s : State) : (s.withDriven p).startSettle = s.startSettle.withDriven p := by
  unfold State.startSettle
  by_cases h : s.sched.settings.settleTime = 0
  · rw [if_pos h, if_pos (by exact h)]
    exact State.settleExpires_withDriven p s
  · rw [if_neg h, if_neg (by exact h)]
    rfl

theorem State.completion_withDriven (i : Nat) (d : Driving) (s : State) :
    (s.withDriven p).completion i d = (s.completion i d).withDriven p := by
  have h : ((s.withDriven p).completeSlot i d).scan = (s.completeSlot i d).scan.withDriven p :=
    State.scan_withDriven p (s.completeSlot i d)
  have ends : ∀ u : State, (if !u.sched.anyDriving && u.sched.queue.isEmpty then (u.withDriven p).startSettle
      else u.withDriven p) = (if !u.sched.anyDriving && u.sched.queue.isEmpty then u.startSettle else u).withDriven p :=
    fun u => by
      rw [State.startSettle_withDriven]
      split <;> rfl
  unfold State.completion
  rw [h]
  exact ends (s.completeSlot i d).scan

/-! ### A completion, with a frame in progress -/

theorem State.scan_drive {s : State} (hf : s.drive.frame ≠ none) : s.scan.drive = s.drive := by
  have judged : ∀ u : State, u.drive = s.drive → u.judgeEntries.drive = s.drive := fun u hu =>
    ((scanEntries_judges u.sched.queue [] false u).waiting (by rw [hu]; exact hf)).1.trans hu
  unfold State.scan
  split
  · rfl
  · split
    · split <;> rfl
    · simp only
      split
      · exact judged _ rfl
      · unfold State.askPower
        simp only
        split
        · split
          · exact judged _ rfl
          · rfl
        · rfl
      · rfl
      · rfl

theorem State.post_drive {s : State} (r : Request) (hf : s.drive.frame ≠ none) : (s.post r).drive = s.drive := by
  obtain ⟨e, he⟩ := s.takeRequest_eq r
  unfold State.post
  split
  · rfl
  · rw [he]
    exact State.scan_drive hf

theorem tidyZones_drive (zones : List Nat) {s : State} (hf : s.drive.frame ≠ none) :
    (zones.foldl State.tidyZone s).drive = s.drive := by
  induction zones generalizing s with
  | nil => rfl
  | cons z rest ih =>
    have h : (s.tidyZone z).drive = s.drive := by
      unfold State.tidyZone
      split
      · exact State.post_drive _ hf
      · rfl
    exact (ih (by rw [h]; exact hf)).trans h

theorem State.settleExpires_drive {s : State} (hf : s.drive.frame ≠ none) : s.settleExpires.drive = s.drive := by
  rw [State.settleExpires_eq]
  split
  · exact tidyZones_drive (s := s.reportQuiet) _ hf
  · rfl

theorem State.completion_drive {s : State} (i : Nat) (d : Driving) (hf : s.drive.frame ≠ none) :
    (s.completion i d).drive = s.drive := by
  have h : (s.completeSlot i d).scan.drive = s.drive := State.scan_drive hf
  unfold State.completion
  simp only
  split
  · unfold State.startSettle
    split
    · exact (State.settleExpires_drive (by rw [h]; exact hf)).trans h
    · exact h
  · exact h

end Sys2Proof.Machine
end

section
/-! PROOF. A frame end slot by slot (9.4): which slots it drives, completes and enrols, and what that leaves of the planes and
of the drive port. -/

namespace Sys2Proof.Machine

/-! ### One slot's frame -/

/-- The slot has had its last frame and is to complete (R155). -/
def State.Ends (s : State) (i : Nat) (d : Driving) : Prop :=
  s.sched.slot i = some d ∧ d.enrolled = true ∧ d.count + 1 = d.length

/-- A slot goes on with its count advanced. -/
def State.countSlot (i : Nat) (d : Driving) (u : State) : State :=
  { u with sched := { u.sched with slots := put u.sched.slots i (some { d with count := d.count + 1 }) } }

/-- What the frame of an enrolled slot of `s` does, the drive port aside (R155). -/
def State.afterFrame (s u : State) (i : Nat) : State :=
  match s.sched.slot i with
  | none => u
  | some d =>
    if d.enrolled = false then u else if d.count + 1 = d.length then u.completion i d else u.countSlot i d

/-- The drive port after the frame of a slot (R144, R155). -/
def State.framePixels (u : State) (d : Driving) (p : Points Drive) : Points Drive :=
  drivePixels (pixelDrive (u.drive.table d.mode d.band) d) u.image.current u.image.goal d.rect p

theorem put_put {α : Type} {n : Nat} (v : Vector α n) (i : Nat) (a b : α) : put (put v i a) i b = put v i b := by
  ext j hj
  by_cases h : j = i <;> simp [put, h, Vector.getElem_setIfInBounds]

theorem State.driveSlot_eq {u : State} {i : Nat} {d : Driving} (hd : u.sched.slot i = some d) (p : Points Drive) :
    (u.withDriven p).driveSlot i =
      (if d.count + 1 = d.length then u.completion i d else u.countSlot i d).withDriven (u.framePixels d p) := by
  unfold State.driveSlot
  simp only [show (u.withDriven p).sched.slot i = some d from hd]
  split
  · rw [← State.completion_withDriven]
    have hcomplete : (u.withDriven (u.framePixels d p)).completeSlot i d =
        ((u.countSlot i d).withDriven (u.framePixels d p)).completeSlot i { d with count := d.count + 1 } := by
      simp only [State.completeSlot, State.withDriven, State.countSlot, put_put]
    unfold State.completion
    rw [hcomplete]
    rfl
  · rfl

/-! ### What a completion raises and leaves -/

/-- Every flag that is raised stays raised. -/
def State.KeepsFlags (s t : State) : Prop := ∀ i, s.events.flags.getLsbD i = true → t.events.flags.getLsbD i = true

theorem State.KeepsFlags.refl (s : State) : s.KeepsFlags s := fun _ h => h

theorem State.KeepsFlags.trans {s t u : State} (h : s.KeepsFlags t) (k : t.KeepsFlags u) : s.KeepsFlags u :=
  fun i hi => k i (h i hi)

theorem State.raise_keepsFlags (e : Event) (s : State) : s.KeepsFlags (s.raise e) := fun i hi => by
  simp [State.raise, hi]

theorem scanEntries_keepsFlags (entries older : List Request) (want : Bool) (s : State) :
    s.KeepsFlags (scanEntries older entries want s) := by
  have h := scanEntries_judges entries older want s
  generalize scanEntries older entries want s = t at h
  induction h with
  | done | full => exact .refl _
  | held _ _ _ _ _ _ _ _ _ _ ih => exact ih
  | wants _ _ _ _ _ s _ _ _ _ _ ih =>
    refine State.KeepsFlags.trans (fun i hi => ?_) ih
    rw [State.holdForWave_eq]
    split
    · exact hi
    · exact s.raise_keepsFlags _ i hi
  | starts _ _ _ _ s _ i m _ _ _ _ ih =>
    rw [State.startIn_eq] at ih
    exact ih

theorem State.scan_keepsFlags (s : State) : s.KeepsFlags s.scan := by
  have judged : ∀ u : State, u.events = s.events → s.KeepsFlags u.judgeEntries := fun u hu i hi =>
    scanEntries_keepsFlags u.sched.queue [] false u i (by rw [hu]; exact hi)
  by_cases hq : s.sched.queue = []
  · rw [State.scan_of_empty hq]
    exact .refl s
  rcases hu : s.drive.usable with _ | _
  · rcases ht : s.sched.tempHold with _ | _
    · rw [State.scan_of_unusable hq hu ht]
      exact State.raise_keepsFlags _ _
    · rw [State.scan_of_held hq hu ht]
      exact .refl s
  cases hs : s.supply.state with
  | on =>
    rw [State.scan_of_on hq hu hs]
    exact judged _ rfl
  | off =>
    rw [State.scan_of_off hq hu hs]
    unfold State.askPower
    simp only
    split
    · split
      · exact judged _ rfl
      · exact .refl s
    · exact .refl s
  | rising =>
    rw [State.scan_of_waiting hq hu (.inl hs)]
    exact .refl s
  | fault =>
    rw [State.scan_of_waiting hq hu (.inr hs)]
    exact .refl s

theorem State.post_keepsFlags (r : Request) (s : State) : s.KeepsFlags (s.post r) := by
  by_cases hgone : s.Discards r
  · rw [State.post_of_discards hgone]
    exact .refl s
  rw [State.post_of_not_discards hgone]
  have taken : s.KeepsFlags (s.takeRequest r) := by
    rcases h : mergeYoungest r s.sched.queue with _ | q
    · rcases Nat.lt_or_ge s.sched.queue.length 16 with hlen | hlen
      · rw [State.takeRequest_of_room h hlen]
        exact .refl s
      · rw [State.takeRequest_of_full h hlen]
        exact State.raise_keepsFlags _ _
    · rw [State.takeRequest_of_merges h]
      exact .refl s
  exact taken.trans (State.scan_keepsFlags (s.takeRequest r).cancelQuiet)

theorem tidyZones_keepsFlags (zones : List Nat) (s : State) : s.KeepsFlags (zones.foldl State.tidyZone s) := by
  induction zones generalizing s with
  | nil => exact .refl s
  | cons z rest ih =>
    refine State.KeepsFlags.trans ?_ (ih _)
    unfold State.tidyZone
    split
    · exact State.post_keepsFlags _ { s with sched := { s.sched with coarse := put s.sched.coarse z false } }
    · exact .refl s

theorem State.settleExpires_keepsFlags (s : State) : s.KeepsFlags s.settleExpires := by
  have quiet : s.KeepsFlags s.reportQuiet := fun i hi => s.raise_keepsFlags .panelQuiet i hi
  rw [State.settleExpires_eq]
  split
  · exact quiet.trans (tidyZones_keepsFlags _ _)
  · exact quiet

/-- From the slot's completion to the end of its report only flags are raised and slots start. -/
theorem State.completion_after (i : Nat) (d : Driving) (s : State) (hcanon : (s.completeSlot i d).Canonical)
    (hrects : (s.completeSlot i d).RectsOnPanel) :
    (s.completeSlot i d).Latches (s.completion i d) ∧ (s.completeSlot i d).KeepsFlags (s.completion i d) := by
  have hscan := (State.scan_moves .wake (s.completeSlot i d)).latches hcanon hrects
  have hflags := (s.completeSlot i d).scan_keepsFlags
  unfold State.completion
  simp only
  split
  · next h =>
    simp only [Bool.and_eq_true, Bool.not_eq_true', List.isEmpty_iff] at h
    refine ⟨hscan.trans ((State.startSettle_moves .wake _ h.1 h.2).latches hscan.canonical hscan.rects),
      hflags.trans ?_⟩
    unfold State.startSettle
    split
    · exact State.settleExpires_keepsFlags _
    · exact .refl _
  · exact ⟨hscan, hflags⟩

/-! ### The course of a frame end -/

/-- The state within a frame end of `s`: the enrolled slots of `todo` still stand as they were, and the others have had
their frame. -/
structure FrameCourse (s u : State) (todo : List Nat) : Prop where
  still : ∀ i d, s.sched.slot i = some d → d.enrolled = false ∨ i ∈ todo → u.sched.slot i = some d
  counted : ∀ i d, s.sched.slot i = some d → d.enrolled = true → i ∉ todo → d.count + 1 ≠ d.length →
    u.sched.slot i = some { d with count := d.count + 1 }
  fresh : ∀ i e, u.sched.slot i = some e → (s.sched.slot i = none ∨ ∃ d, s.Ends i d ∧ i ∉ todo) →
    e.enrolled = false ∧ e.count = 0
  drive : u.drive = s.drive
  current : ∀ x y, x < 1248 → (∀ i d, s.Ends i d → i ∉ todo → d.rect.holds x y = false) →
    u.image.current.level x y = s.image.current.level x y
  ended : s.SchedulerSound → ∀ i d, s.Ends i d → i ∉ todo → ∀ x y, d.rect.holds x y = true →
    u.image.current.level x y = s.image.goal.level x y
  goalKept : ∀ i d, s.sched.slot i = some d → (¬ s.Ends i d ∨ i ∈ todo) → ∀ x y, d.rect.holds x y = true →
    u.image.goal.level x y = s.image.goal.level x y
  goal : ∀ x y, x < 1248 → u.image.goal.level x y ≠ s.image.goal.level x y →
    ∃ i d, (s.sched.slot i = none ∨ ∃ e, s.Ends i e ∧ i ∉ todo) ∧ u.sched.slot i = some d ∧ d.count = 0 ∧
      d.rect.holds x y = true
  flag : (∃ i d, s.Ends i d ∧ i ∉ todo) → u.raised .refreshDone = true
  canonical : u.Canonical
  rects : u.RectsOnPanel
  panel : s.PanelOnly u

theorem Scheduler.mem_enrolled {q : Scheduler} {yes : Bool} {i : Nat} :
    i ∈ q.enrolled yes ↔ ∃ d, q.slot i = some d ∧ d.enrolled = yes := by
  simp only [Scheduler.enrolled, List.mem_filter, List.mem_range]
  constructor
  · rintro ⟨-, h⟩
    split at h
    · next d hd => exact ⟨d, hd, by simpa using h⟩
    · cases h
  · rintro ⟨d, hd, rfl⟩
    exact ⟨Scheduler.slot_lt hd, by simp [hd]⟩

theorem FrameCourse.begin {s : State} (hcanon : s.Canonical) (hrects : s.RectsOnPanel) :
    FrameCourse s s (s.sched.enrolled true) := by
  have inTodo : ∀ i d, s.sched.slot i = some d → d.enrolled = true → i ∈ s.sched.enrolled true := fun i d hd he =>
    Scheduler.mem_enrolled.2 ⟨d, hd, he⟩
  refine ⟨fun i d hd _ => hd, fun i d hd he hn => absurd (inTodo i d hd he) hn, fun i e he h => ?_, rfl,
    fun _ _ _ _ => rfl, fun _ i d hd hn => absurd (inTodo i d hd.1 hd.2.1) hn, fun _ _ _ _ _ _ _ => rfl,
    fun _ _ _ h => absurd rfl h, ?_, hcanon, hrects, .refl s⟩
  · rcases h with h | ⟨d, hd, hn⟩
    · rw [he] at h
      cases h
    · exact absurd (inTodo i d hd.1 hd.2.1) hn
  · rintro ⟨i, d, hd, hn⟩
    exact absurd (inTodo i d hd.1 hd.2.1) hn

section
variable {s u : State} {i : Nat} {d : Driving} {todo : List Nat}

theorem State.countSlot_slot (u : State) (i j : Nat) (d : Driving) :
    (u.countSlot i d).sched.slot j = if j = i ∧ i < 8 then some { d with count := d.count + 1 } else u.sched.slot j :=
  slot_put

theorem State.completeSlot_slot (u : State) (i j : Nat) (d : Driving) :
    (u.completeSlot i d).sched.slot j = if j = i ∧ i < 8 then none else u.sched.slot j :=
  slot_put

variable (h : FrameCourse s u (i :: todo)) (hd : s.sched.slot i = some d) (he : d.enrolled = true) (hi : i ∉ todo)
include h hd he hi

/-- The frame of a slot that goes on. -/
theorem FrameCourse.counts (hne : d.count + 1 ≠ d.length) : FrameCourse s (u.countSlot i d) todo := by
  have hlt : i < 8 := Scheduler.slot_lt hd
  have hnotEnds : ∀ e, ¬ s.Ends i e := fun e he' => by
    have := he'.1
    rw [hd] at this
    cases this
    exact hne he'.2.2
  have other : ∀ j, j ≠ i → (u.countSlot i d).sched.slot j = u.sched.slot j := fun j hj => by
    rw [State.countSlot_slot, if_neg fun h => hj h.1]
  have notTodo : ∀ {j e}, s.Ends j e → j ∉ todo → j ∉ i :: todo := fun {j e} hj hn hmem => by
    rcases List.mem_cons.1 hmem with rfl | hmem
    · exact hnotEnds e hj
    · exact hn hmem
  refine ⟨fun j e hj hstill => ?_, fun j e hj hej hn hcount => ?_, fun j e hj hfresh => ?_, h.drive, fun x y hx hno => ?_,
    fun hsound j e hj hn => h.ended hsound j e hj (notTodo hj hn), fun j e hj hkept => ?_, fun x y hx hchange => ?_, ?_, h.canonical, ?_,
    h.panel.trans ⟨rfl, rfl, rfl, rfl, rfl, rfl, rfl, rfl, rfl, rfl, rfl⟩⟩
  · have hji : j ≠ i := by
      rintro rfl
      rw [hd] at hj
      cases hj
      simp [he, hi] at hstill
    rw [other j hji]
    exact h.still j e hj (hstill.imp_right (List.mem_cons_of_mem _))
  · by_cases hji : j = i
    · subst hji
      rw [hd] at hj
      cases hj
      rw [State.countSlot_slot, if_pos ⟨rfl, hlt⟩]
    · rw [other j hji]
      exact h.counted j e hj hej (by simp [hji, hn]) hcount
  · have hji : j ≠ i := by
      rintro rfl
      rcases hfresh with hn | ⟨f, hf, -⟩
      · rw [hd] at hn
        cases hn
      · exact hnotEnds f hf
    rw [other j hji] at hj
    exact h.fresh j e hj (hfresh.imp_right fun ⟨f, hf, hn⟩ => ⟨f, hf, notTodo hf hn⟩)
  · exact h.current x y hx fun j e hj hn => hno j e hj fun hmem => hn (List.mem_cons_of_mem _ hmem)
  · exact h.goalKept j e hj (hkept.imp_right (List.mem_cons_of_mem _))
  · obtain ⟨j, e, hj, hslot, hcount, hxy⟩ := h.goal x y hx hchange
    have hji : j ≠ i := by
      rintro rfl
      rcases hj with hn | ⟨f, hf, -⟩
      · rw [hd] at hn
        cases hn
      · exact hnotEnds f hf
    refine ⟨j, e, hj.imp_right fun ⟨f, hf, hn⟩ => ⟨f, hf, fun hmem => hn (List.mem_cons_of_mem _ hmem)⟩, ?_, hcount, hxy⟩
    rw [other j hji]
    exact hslot
  · rintro ⟨j, e, hj, hn⟩
    exact h.flag ⟨j, e, hj, notTodo hj hn⟩
  · obtain ⟨hqueue, hslots, hwindow, hlegal⟩ := h.rects
    refine ⟨hqueue, fun j e hj => ?_, hwindow, hlegal⟩
    rw [State.countSlot_slot] at hj
    split at hj
    · cases hj
      exact hslots i d (h.still i d hd (.inr (List.mem_cons_self ..)))
    · exact hslots j e hj

/-- The last frame of a slot: it completes, and what starts then waits (R133, R155). -/
theorem FrameCourse.completes (hend : d.count + 1 = d.length) (hf : s.drive.frame ≠ none)
    (hrects₀ : s.RectsOnPanel) : FrameCourse s (u.completion i d) todo := by
  have hpanel : d.rect.onPanel := hrects₀.2.1 i d hd
  have hlt : i < 8 := Scheduler.slot_lt hd
  have hEnds : s.Ends i d := ⟨hd, he, hend⟩
  have huslot : u.sched.slot i = some d := h.still i d hd (.inr (List.mem_cons_self ..))
  have hmove : u.PanelMove .frameEnd (u.completeSlot i d) := .complete u i d rfl huslot
  have hcanon := canonical_kept _ _ _ hmove h.canonical
  have hrects := rectsOnPanel_kept _ _ _ hmove h.rects
  obtain ⟨hlat, hflags⟩ := u.completion_after i d hcanon hrects
  have hother : ∀ j, j ≠ i → (u.completeSlot i d).sched.slot j = u.sched.slot j := fun j hj => by
    rw [State.completeSlot_slot, if_neg fun h => hj h.1]
  have hfree : (u.completeSlot i d).sched.slot i = none := by
    rw [State.completeSlot_slot, if_pos ⟨rfl, hlt⟩]
  have hcurrent : ∀ x y, x < 1248 → (u.completion i d).image.current.level x y =
      if d.rect.holds x y = true then u.image.goal.level x y else u.image.current.level x y := fun x y hx => by
    rw [hlat.current]
    exact Plane.level_copyRect _ _ _ _ x y h.canonical.2.2.1 h.canonical.2.1 hpanel.1 hpanel.2.1 hpanel.2.2.1 hx
  have hdrive : (u.completion i d).drive = s.drive := by
    rw [State.completion_drive i d (by rw [h.drive]; exact hf), h.drive]
  have apart : s.SchedulerSound → ∀ j e, s.sched.slot j = some e → j ≠ i → ∀ x y, e.rect.holds x y = true →
      d.rect.holds x y = false := by
    intro hsound j e hj hji x y hxy
    have := hsound.2 i j d e hlt (Scheduler.slot_lt hj) (Ne.symm hji) hd hj x y
    simpa [hxy] using this
  have notTodo : ∀ {j}, j ≠ i → j ∉ todo → j ∉ i :: todo := fun {j} hji hn => by simp [hji, hn]
  refine ⟨fun j e hj hstill => ?_, fun j e hj hej hn hcount => ?_, fun j e hj hfresh => ?_, hdrive,
    fun x y hx hno => ?_, fun hsound j e hj hn x y hxy => ?_, fun j e hj hkept x y hxy => ?_, fun x y hx hchange => ?_,
    fun _ => ?_, hlat.canonical, hlat.rects, h.panel.trans (u.completion_panelOnly i d |> fun hp => hp)⟩
  · have hji : j ≠ i := by
      rintro rfl
      rw [hd] at hj
      cases hj
      simp [he, hi] at hstill
    refine hlat.kept j e ?_
    rw [hother j hji]
    exact h.still j e hj (hstill.imp_right (List.mem_cons_of_mem _))
  · have hji : j ≠ i := by
      rintro rfl
      rw [hd] at hj
      cases hj
      exact hcount hend
    refine hlat.kept j _ ?_
    rw [hother j hji]
    exact h.counted j e hj hej (notTodo hji hn) hcount
  · rcases hold : (u.completeSlot i d).sched.slot j with _ | f
    · obtain ⟨h1, h2⟩ := hlat.fresh j e ⟨hold, hj⟩
      refine ⟨h2 ?_, h1⟩
      show u.drive.frame ≠ none
      rw [h.drive]
      exact hf
    · have := hlat.kept j f hold
      rw [hj] at this
      cases this
      have hji : j ≠ i := by
        rintro rfl
        rw [hfree] at hold
        cases hold
      rw [hother j hji] at hold
      exact h.fresh j e hold (hfresh.imp_right fun ⟨g, hg, hn⟩ => ⟨g, hg, notTodo hji hn⟩)
  · have hout : d.rect.holds x y = false := hno i d hEnds hi
    rw [hcurrent x y hx, if_neg (by simp [hout])]
    exact h.current x y hx fun j e hj hn => hno j e hj fun hmem => hn (List.mem_cons_of_mem _ hmem)
  · have hx : x < 1248 := Rect.holds_lt (hrects₀.2.1 j e hj.1) hxy
    by_cases hji : j = i
    · subst hji
      have := hj.1
      rw [hd] at this
      cases this
      rw [hcurrent x y hx, if_pos hxy]
      exact h.goalKept j d hd (.inr (List.mem_cons_self ..)) x y hxy
    · rw [hcurrent x y hx, if_neg (by simp [apart hsound j e hj.1 hji x y hxy])]
      exact h.ended hsound j e hj (notTodo hji hn) x y hxy
  · have hji : j ≠ i := by
      rintro rfl
      rw [hd] at hj
      cases hj
      rcases hkept with hk | hk
      · exact hk hEnds
      · exact hi hk
    obtain ⟨f, hf', hrect⟩ : ∃ f, u.sched.slot j = some f ∧ f.rect = e.rect := by
      by_cases hstill : e.enrolled = false ∨ j ∈ todo
      · exact ⟨e, h.still j e hj (hstill.imp_right (List.mem_cons_of_mem _)), rfl⟩
      · simp only [not_or, Bool.not_eq_false] at hstill
        have hnotEnds : ¬ s.Ends j e := hkept.resolve_right hstill.2
        exact ⟨_, h.counted j e hj hstill.1 (notTodo hji hstill.2) fun hl => hnotEnds ⟨hj, hstill.1, hl⟩, rfl⟩
    rw [hlat.goalKept j f (by rw [hother j hji]; exact hf') x y (by rw [hrect]; exact hxy)]
    exact h.goalKept j e hj (hkept.imp_right (List.mem_cons_of_mem _)) x y hxy
  · by_cases heq : (u.completion i d).image.goal.level x y = u.image.goal.level x y
    · obtain ⟨j, e, hj, hslot, hcount, hxy⟩ := h.goal x y hx (heq ▸ hchange)
      have hji : j ≠ i := by
        rintro rfl
        rcases hj with hn | ⟨f, -, hn⟩
        · rw [hd] at hn
          cases hn
        · exact hn (List.mem_cons_self ..)
      exact ⟨j, e, hj.imp_right fun ⟨f, hf, hn⟩ => ⟨f, hf, fun hmem => hn (List.mem_cons_of_mem _ hmem)⟩,
        hlat.kept j e (by rw [hother j hji]; exact hslot), hcount, hxy⟩
    · obtain ⟨j, e, hstarted, hxy⟩ := hlat.goal x y hx heq
      refine ⟨j, e, ?_, hstarted.2, (hlat.fresh j e hstarted).1, hxy⟩
      by_cases hji : j = i
      · subst hji
        exact .inr ⟨d, hEnds, hi⟩
      · have hnone := hstarted.1
        rw [hother j hji] at hnone
        rcases hs : s.sched.slot j with _ | f
        · exact .inl rfl
        · by_cases hstill : f.enrolled = false ∨ j ∈ i :: todo
          · rw [h.still j f hs hstill] at hnone
            cases hnone
          · simp only [not_or, Bool.not_eq_false] at hstill
            by_cases hl : f.count + 1 = f.length
            · exact .inr ⟨f, ⟨hs, hstill.1, hl⟩, fun hmem => hstill.2 (List.mem_cons_of_mem _ hmem)⟩
            · rw [h.counted j f hs hstill.1 hstill.2 hl] at hnone
              cases hnone
  · refine hflags 2 ?_
    rw [State.completeSlot, State.raise_getLsbD _ _ (by decide)]
    simp [Event.bit]

end

/-! ### Every slot's frame -/

/-- What the drive port holds once the enrolled slots outside `todo` have had their frame (R130, R144). -/
structure PortCourse (s : State) (todo : List Nat) (p : Points Drive) : Prop where
  wf : Points.wf Drive.hold p = true
  driven : s.SchedulerSound → ∀ i d, s.sched.slot i = some d → d.enrolled = true → i ∉ todo →
    ∀ x y, d.rect.holds x y = true →
    Points.read Drive.hold p (pixelIndex x y) =
      pixelDrive (s.drive.table d.mode d.band) d (s.image.current.level x y) (s.image.goal.level x y)
  held : ∀ x y, x < 1248 → (∀ i d, s.sched.slot i = some d → d.enrolled = true → i ∉ todo → d.rect.holds x y = false) →
    Points.read Drive.hold p (pixelIndex x y) = .hold

/-- The frame of a slot drives its pixels by the levels as they stood. -/
theorem PortCourse.next {s u : State} {i : Nat} {d : Driving} {todo : List Nat} {p : Points Drive}
    (hp : PortCourse s (i :: todo) p) (h : FrameCourse s u (i :: todo)) (hd : s.sched.slot i = some d)
    (he : d.enrolled = true) (hi : i ∉ todo) (hrects : s.RectsOnPanel) :
    PortCourse s todo (u.framePixels d p) := by
  have hpanel := hrects.2.1 i d hd
  have hread : ∀ x y, x < 1248 → Points.read Drive.hold (u.framePixels d p) (pixelIndex x y) =
      if d.rect.holds x y = true then
        pixelDrive (u.drive.table d.mode d.band) d (u.image.current.level x y) (u.image.goal.level x y)
      else Points.read Drive.hold p (pixelIndex x y) := fun x y hx =>
    drivePixels_read _ h.canonical.2.1 hp.wf hpanel hx
  have apart : s.SchedulerSound → ∀ j e, s.sched.slot j = some e → j ≠ i → ∀ x y, e.rect.holds x y = true →
      d.rect.holds x y = false := by
    intro hsound j e hj hji x y hxy
    have := hsound.2 i j d e (Scheduler.slot_lt hd) (Scheduler.slot_lt hj) (Ne.symm hji) hd hj x y
    simpa [hxy] using this
  refine ⟨drivePixels_wf _ _ h.canonical.2.1 hp.wf, fun hsound j e hj hej hn x y hxy => ?_, fun x y hx hno => ?_⟩
  · have hx := Rect.holds_lt (hrects.2.1 j e hj) hxy
    rw [hread x y hx]
    by_cases hji : j = i
    · subst hji
      rw [hd] at hj
      cases hj
      have hout : ∀ k f, s.Ends k f → k ∉ j :: todo → f.rect.holds x y = false := fun k f hk hn => by
        have hkj : k ≠ j := by
          rintro rfl
          exact hn (List.mem_cons_self ..)
        by_contra hin
        rw [apart hsound k f hk.1 hkj x y (by simpa using hin)] at hxy
        cases hxy
      rw [if_pos hxy, h.drive, h.current x y hx hout,
        h.goalKept j d hd (.inr (List.mem_cons_self ..)) x y hxy]
    · rw [if_neg (by simp [apart hsound j e hj hji x y hxy])]
      exact hp.driven hsound j e hj hej (by simp [hji, hn]) x y hxy
  · rw [hread x y hx, if_neg (by simp [hno i d hd he hi])]
    exact hp.held x y hx fun j e hj hej hn => hno j e hj hej fun hmem => hn (List.mem_cons_of_mem _ hmem)

/-- The enrolled slots have their frames one after another; the drive port goes beside them. -/
theorem driveSlots_course {s : State} (hrects : s.RectsOnPanel) (hf : s.drive.frame ≠ none)
    (todo : List Nat) (hnodup : todo.Nodup) (htodo : ∀ i ∈ todo, i ∈ s.sched.enrolled true) (u : State)
    (p : Points Drive) (h : FrameCourse s u todo) (hp : PortCourse s todo p) :
    ∃ q, todo.foldl State.driveSlot (u.withDriven p) = (todo.foldl s.afterFrame u).withDriven q ∧
      FrameCourse s (todo.foldl s.afterFrame u) [] ∧ PortCourse s [] q := by
  induction todo generalizing u p with
  | nil => exact ⟨p, rfl, h, hp⟩
  | cons i todo ih =>
    obtain ⟨hi, hnodup⟩ := List.nodup_cons.1 hnodup
    obtain ⟨hmem, htodo⟩ := List.forall_mem_cons.1 htodo
    obtain ⟨d, hd, he⟩ := Scheduler.mem_enrolled.1 hmem
    have hstep : s.afterFrame u i = if d.count + 1 = d.length then u.completion i d else u.countSlot i d := by
      simp only [State.afterFrame, hd, he, Bool.true_eq_false, if_false]
    have hcourse : FrameCourse s (s.afterFrame u i) todo := by
      rw [hstep]
      split
      · next hend => exact h.completes hd he hi hend hf hrects
      · next hne => exact h.counts hd he hi hne
    rw [List.foldl_cons, List.foldl_cons, State.driveSlot_eq (h.still i d hd (.inr (List.mem_cons_self ..))), ← hstep]
    exact ih hnodup htodo _ _ hcourse (hp.next h hd he hi hrects)

/-! ### Enrolment -/

/-- A slot of `s` that waited becomes enrolled (R155). -/
def State.afterWait (s u : State) (i : Nat) : State :=
  match s.sched.slot i with
  | none => u
  | some d =>
    if d.enrolled = true then u
    else { u with sched := { u.sched with slots := put u.sched.slots i (some { d with enrolled := true }) } }

/-- Of the slots that waited those of `todo` still wait, and the others are enrolled; nothing else has changed. -/
structure WaitCourse (s v u : State) (todo : List Nat) : Prop where
  rest : u = { v with sched := { v.sched with slots := u.sched.slots } }
  still : ∀ i d, s.sched.slot i = some d → d.enrolled = false → i ∈ todo → u.sched.slot i = some d
  enrolled : ∀ i d, s.sched.slot i = some d → d.enrolled = false → i ∉ todo →
    u.sched.slot i = some { d with enrolled := true }
  other : ∀ i, (∀ d, s.sched.slot i = some d → d.enrolled = true) → u.sched.slot i = v.sched.slot i

theorem WaitCourse.next {s v u : State} {i : Nat} {d : Driving} {todo : List Nat} (h : WaitCourse s v u (i :: todo))
    (hd : s.sched.slot i = some d) (he : d.enrolled = false) (hi : i ∉ todo) :
    WaitCourse s v (s.afterWait u i) todo ∧ u.enrol i = s.afterWait u i := by
  have hu := h.still i d hd he (List.mem_cons_self ..)
  have hafter : s.afterWait u i =
      { u with sched := { u.sched with slots := put u.sched.slots i (some { d with enrolled := true }) } } := by
    simp only [State.afterWait, hd, he, Bool.false_eq_true, if_false]
  have hslot : ∀ j, (s.afterWait u i).sched.slot j = if j = i ∧ i < 8 then some { d with enrolled := true }
      else u.sched.slot j := fun j => by
    rw [hafter]
    exact slot_put
  have hother : ∀ j, j ≠ i → (s.afterWait u i).sched.slot j = u.sched.slot j := fun j hj => by
    rw [hslot, if_neg fun h => hj h.1]
  refine ⟨⟨?_, fun j e hj hej hmem => ?_, fun j e hj hej hn => ?_, fun j hno => ?_⟩, ?_⟩
  · rw [hafter]
    have := h.rest
    generalize put u.sched.slots i (some { d with enrolled := true }) = slots
    rw [this]
  · have hji : j ≠ i := by
      rintro rfl
      exact hi hmem
    rw [hother j hji]
    exact h.still j e hj hej (List.mem_cons_of_mem _ hmem)
  · by_cases hji : j = i
    · subst hji
      rw [hd] at hj
      cases hj
      rw [hslot, if_pos ⟨rfl, Scheduler.slot_lt hd⟩]
    · rw [hother j hji]
      exact h.enrolled j e hj hej (by simp [hji, hn])
  · have hji : j ≠ i := by
      rintro rfl
      have := hno d hd
      rw [he] at this
      cases this
    rw [hother j hji]
    exact h.other j hno
  · rw [hafter]
    simp only [State.enrol, hu]

theorem enrols_course {s v : State} (todo : List Nat) (hnodup : todo.Nodup)
    (htodo : ∀ i ∈ todo, i ∈ s.sched.enrolled false) (u : State) (h : WaitCourse s v u todo) :
    todo.foldl State.enrol u = todo.foldl s.afterWait u ∧ WaitCourse s v (todo.foldl s.afterWait u) [] := by
  induction todo generalizing u with
  | nil => exact ⟨rfl, h⟩
  | cons i todo ih =>
    obtain ⟨hi, hnodup⟩ := List.nodup_cons.1 hnodup
    obtain ⟨hmem, htodo⟩ := List.forall_mem_cons.1 htodo
    obtain ⟨d, hd, he⟩ := Scheduler.mem_enrolled.1 hmem
    obtain ⟨hnext, heq⟩ := h.next hd he hi
    rw [List.foldl_cons, List.foldl_cons, heq]
    exact ih hnodup htodo _ hnext

/-! ### The whole frame end -/

/-- A step that does nothing outside a list may run over that list alone. -/
theorem foldl_filter_range {f : State → Nat → State} {keep : Nat → Bool} (hf : ∀ u i, keep i = false → f u i = u)
    (u : State) : ((List.range 8).filter keep).foldl f u = (List.range 8).foldl f u := by
  rw [List.foldl_filter]
  congr 1
  funext u i
  split
  · rfl
  · next h => exact (hf u i (by simpa using h)).symm

/-- A frame end: the frames of the enrolled slots, the enrolment of the others, and the
next frame (R155). -/
theorem State.frameEnds_course {s : State} (hcanon : s.Canonical) (hrects : s.RectsOnPanel)
    (hf : s.drive.frame ≠ none) : ∃ (v u : State) (q : Points Drive),
      v = (List.range 8).foldl s.afterFrame s ∧ u = (List.range 8).foldl s.afterWait (v.withDriven q) ∧
      s.frameEnds = { u with drive := { u.drive with frame := if u.sched.anyDriving then some s.drive.period else none } } ∧
      FrameCourse s v [] ∧ PortCourse s [] q ∧ WaitCourse s (v.withDriven q) u [] := by
  have nodup : ∀ yes, (s.sched.enrolled yes).Nodup := fun yes => List.nodup_range.filter _
  have begun : PortCourse s (s.sched.enrolled true) [] :=
    ⟨rfl, fun _ i d hd he hn => absurd (Scheduler.mem_enrolled.2 ⟨d, hd, he⟩) hn, fun _ _ _ _ => rfl⟩
  obtain ⟨q, hq, hcourse, hport⟩ := driveSlots_course hrects hf _ (nodup true) (fun i hi => hi) s []
    (FrameCourse.begin hcanon hrects) begun
  have hv : (s.sched.enrolled true).foldl s.afterFrame s = (List.range 8).foldl s.afterFrame s := by
    refine foldl_filter_range (fun u i hi => ?_) s
    unfold State.afterFrame
    split
    · rfl
    · next d hd => rw [if_pos (by simpa [hd] using hi)]
  rw [hv] at hq hcourse
  obtain ⟨v, hvdef⟩ : ∃ v, v = (List.range 8).foldl s.afterFrame s := ⟨_, rfl⟩
  rw [← hvdef] at hq hcourse
  have hwait : WaitCourse s (v.withDriven q) (v.withDriven q) (s.sched.enrolled false) := by
    refine ⟨rfl, fun i d hd he _ => hcourse.still i d hd (.inl he), fun i d hd he hn => ?_, fun _ _ => rfl⟩
    exact absurd (Scheduler.mem_enrolled.2 ⟨d, hd, he⟩) hn
  obtain ⟨heq, hend⟩ := enrols_course _ (nodup false) (fun i hi => hi) _ hwait
  have hu : (s.sched.enrolled false).foldl s.afterWait (v.withDriven q) =
      (List.range 8).foldl s.afterWait (v.withDriven q) := by
    refine foldl_filter_range (fun u i hi => ?_) _
    unfold State.afterWait
    split
    · rfl
    · next d hd => rw [if_pos (by simpa [hd] using hi)]
  rw [hu] at heq hend
  refine ⟨v, _, q, hvdef, rfl, ?_, hcourse, hport, hend⟩
  have hperiod : ((List.range 8).foldl s.afterWait (v.withDriven q)).drive.period = s.drive.period := by
    rw [hend.rest]
    show v.drive.period = s.drive.period
    rw [hcourse.drive]
  rw [← hperiod, ← heq, ← hq]
  rfl

/-! ### What writes the planes -/

/-- The planes and the slots after the whole frame end are those after the frames, but for the enrolment. -/
theorem State.frameEnds_ends {s : State} (hcanon : s.Canonical) (hrects : s.RectsOnPanel)
    (hf : s.drive.frame ≠ none) : ∃ v, FrameCourse s v [] ∧ s.frameEnds.image = v.image ∧
      ∀ i d, v.sched.slot i = some d → (s.sched.slot i = none ∨ ∃ e, s.Ends i e) → s.frameEnds.sched.slot i = some d := by
  obtain ⟨v, u, q, -, -, heq, hcourse, -, hwait⟩ := State.frameEnds_course hcanon hrects hf
  refine ⟨v, hcourse, ?_, fun i d hd hends => ?_⟩
  · rw [heq, hwait.rest]
    rfl
  · have henrolled : ∀ e, s.sched.slot i = some e → e.enrolled = true := fun e he => by
      rcases hends with hn | ⟨f, hf⟩
      · rw [he] at hn
        cases hn
      · have := hf.1
        rw [he] at this
        cases this
        exact hf.2.1
    rw [heq]
    show u.sched.slot i = some d
    rw [hwait.other i henrolled]
    exact hd

/-- The goals at a frame end change under what has started in its completions alone (R129, R130). -/
theorem FrameCourse.keepsGoals {s v : State} (h : FrameCourse s v []) :
    (∀ x y, x < 1248 → v.image.goal.level x y ≠ s.image.goal.level x y →
      ∃ i d, (s.sched.slot i = none ∨ ∃ e, s.Ends i e) ∧ v.sched.slot i = some d ∧ d.count = 0 ∧ d.rect.holds x y = true) ∧
    ∀ i d, s.sched.slot i = some d → (¬ ∃ e, s.Ends i e) → ∀ x y, d.rect.holds x y = true →
      v.image.goal.level x y = s.image.goal.level x y := by
  refine ⟨fun x y hx hne => ?_, fun i d hd hno x y hxy => h.goalKept i d hd (.inl fun he => hno ⟨d, he⟩) x y hxy⟩
  obtain ⟨i, d, hi, hslot, hcount, hxy⟩ := h.goal x y hx hne
  exact ⟨i, d, hi.imp_right fun ⟨e, he, _⟩ => ⟨e, he⟩, hslot, hcount, hxy⟩

theorem exec_frameEnd_cases {s t : State} (hx : exec .frameEnd s = .next t) :
    t = s ∨ (s.drive.frame ≠ none ∧ t = s.frameEnds) := by
  obtain rfl : s.frameExpires = t := Host.Outcome.next.inj hx
  unfold State.frameExpires
  split
  · next h => exact .inr ⟨Option.isSome_iff_ne_none.1 h, rfl⟩
  · exact .inl rfl

theorem exec_current {c : Instr} {s t : State} (hx : exec c s = .next t) (hne : t.image.current ≠ s.image.current) :
    c = .frameEnd ∨ c = .powerOn := by
  by_contra hc
  obtain ⟨hframe, hpower⟩ := not_or.1 hc
  cases exec_reaches_of hx with
  | moves _ hm => exact hne (hm.current hframe)
  | powerOn h => exact hpower h
  | pinReset => exact hne rfl
  | resetCommand u hm => exact hne rfl

theorem exec_target {c : Instr} {s t : State} (hx : exec c s = .next t) (hne : t.image.target ≠ s.image.target) :
    WritesPixels c ∨ c = .powerOn := by
  by_contra hc
  obtain ⟨hwrites, hpower⟩ := not_or.1 hc
  cases exec_reaches_of hx with
  | moves _ hm => exact hne (hm.target hwrites)
  | powerOn h => exact hpower h
  | pinReset => exact hne rfl
  | resetCommand u hm => exact hne rfl

/-- Settles O58: elementary changes outside a frame end, and the course of a frame end slot by slot. -/
theorem onlyTheirWritersChangeThePlanes : Obligations.OnlyTheirWritersChangeThePlanes := by
  intro c s t hx
  refine ⟨exec_current hx, fun hne => ?_, ?_, fun hpower hcanon hrects => ?_⟩
  · rcases exec_target hx hne with (h | h | h | h) | h
    · exact .inl h
    · exact .inr (.inl h)
    · exact .inr (.inr (.inl h))
    · exact .inr (.inr (.inr (.inl h)))
    · exact .inr (.inr (.inr (.inr h)))
  · rintro rfl hcanon hsound hrects x y hx' hne
    rcases exec_frameEnd_cases hx with rfl | ⟨hf, rfl⟩
    · exact absurd rfl hne
    · obtain ⟨v, hv, himage, -⟩ := State.frameEnds_ends hcanon hrects hf
      rw [himage] at hne
      by_contra hno
      refine hne (hv.current x y hx' fun i d hd _ => ?_)
      by_contra hin
      exact hno ⟨i, d, hd.1, hd.2.1, hd.2.2, by simpa using hin⟩
  · by_cases hc : c = .frameEnd
    · subst hc
      have ends_iff : ∀ i, (∃ d, s.sched.slot i = some d ∧ Instr.frameEnd = .frameEnd ∧ d.enrolled = true ∧
          d.count + 1 = d.length) ↔ ∃ d, s.Ends i d := fun i =>
        exists_congr fun d => ⟨fun ⟨h1, _, h2, h3⟩ => ⟨h1, h2, h3⟩, fun ⟨h1, h2, h3⟩ => ⟨h1, rfl, h2, h3⟩⟩
      rcases exec_frameEnd_cases hx with rfl | ⟨hf, rfl⟩
      · exact ⟨fun _ _ _ h => absurd rfl h, fun _ _ _ _ _ _ _ => rfl⟩
      · obtain ⟨v, hv, himage, hslots⟩ := State.frameEnds_ends hcanon hrects hf
        rw [himage]
        obtain ⟨h1, h2⟩ := hv.keepsGoals
        refine ⟨fun x y hx' hne => ?_, fun i d hd hno => h2 i d hd fun he => hno ((ends_iff i).2 he)⟩
        obtain ⟨i, d, hi, hslot, hcount, hxy⟩ := h1 x y hx' hne
        exact ⟨i, d, hi.imp_right (ends_iff i).2, hslots i d hslot hi, hcount, hxy⟩
    · rcases exec_goal hx hpower hc hcanon hrects with h | h
      · refine ⟨fun x y hx' hne => ?_, fun i d hd _ => h.goalKept i d hd⟩
        obtain ⟨i, d, hd, hxy⟩ := h.goal x y hx' hne
        exact ⟨i, d, .inl hd.1, hd.2, (h.fresh i d hd).1, hxy⟩
      · exact ⟨fun x y _ hne => absurd (by rw [h]) hne, fun _ _ _ _ x y _ => by rw [h]⟩

/-! ### The statement of a frame end -/

/-- The drive of a pixel, by its two levels and the two bits that the table holds for them (R130, R144). -/
theorem pixelDrive_spec {w : Wave} {d : Driving} {start goal : Level} :
    (d.mode ≠ .clean → start = goal → pixelDrive w d start goal = .hold) ∧
    ∀ data, (d.mode = .clean ∨ start ≠ goal) → w = .ready d.length data →
      let pair := start.val * 16 + goal.val
      let cell := (data.getD (64 * d.count + pair / 4) 0).toNat
      let code := if pair % 4 = 0 then cell / 64 else if pair % 4 = 1 then cell / 16 % 4
        else if pair % 4 = 2 then cell / 4 % 4 else cell % 4
      pixelDrive w d start goal = if code = 1 then .darken else if code = 2 then .lighten else .hold := by
  refine ⟨fun hm heq => if_pos ⟨hm, heq⟩, fun data hdriven hw => ?_⟩
  have hneg : ¬ (d.mode ≠ .clean ∧ start = goal) := by
    rintro ⟨h1, h2⟩
    exact hdriven.elim h1 fun h => h h2
  have hcode : w.code d.count start.val goal.val =
      ((data.getD (64 * d.count + (start.val * 16 + goal.val) / 4) 0).toNat /
        4 ^ (3 - (start.val * 16 + goal.val) % 4)) % 4 := by
    rw [hw, Nat.mul_comm 64]
    rfl
  have hcell := (data.getD (64 * d.count + (start.val * 16 + goal.val) / 4) 0).isLt
  intro pair cell code
  have hcode' : w.code d.count start.val goal.val = code := by
    rw [hcode]
    show cell / 4 ^ (3 - pair % 4) % 4 = code
    have hlt : pair % 4 = 0 ∨ pair % 4 = 1 ∨ pair % 4 = 2 ∨ pair % 4 = 3 := by omega
    rcases hlt with h | h | h | h <;> simp only [code, h] <;> simp
    have : cell < 256 := hcell
    omega
  unfold pixelDrive
  rw [if_neg hneg, hcode']
  rfl

/-- Where no slot comes to its end, every enrolled slot counts on. -/
theorem afterFrames_of_no_end {s : State} (hno : ∀ i d, ¬ s.Ends i d) (l : List Nat) (u : State) :
    l.foldl s.afterFrame u = { u with sched := { u.sched with slots := (l.foldl s.afterFrame u).sched.slots } } ∧
    ∀ i, s.sched.slot i = none → (l.foldl s.afterFrame u).sched.slot i = u.sched.slot i := by
  induction l generalizing u with
  | nil => exact ⟨rfl, fun _ _ => rfl⟩
  | cons i rest ih =>
    have step : s.afterFrame u i = u ∨ ∃ d, s.sched.slot i = some d ∧ s.afterFrame u i = u.countSlot i d := by
      unfold State.afterFrame
      split
      · exact .inl rfl
      · next d hd =>
        split
        · exact .inl rfl
        · next he =>
          rw [if_neg fun hl => hno i d ⟨hd, by simpa using he, hl⟩]
          exact .inr ⟨d, hd, rfl⟩
    obtain ⟨h1, h2⟩ := ih (s.afterFrame u i)
    rw [List.foldl_cons]
    rcases step with hs | ⟨d, hd, hs⟩
    · rw [hs] at h1 h2 ⊢
      exact ⟨h1, h2⟩
    · rw [hs] at h1 h2 ⊢
      refine ⟨h1, fun j hj => (h2 j hj).trans ?_⟩
      rw [State.countSlot_slot, if_neg]
      rintro ⟨rfl, -⟩
      rw [hd] at hj
      cases hj

/-- A slot that does not end counts on if it was enrolled, and is enrolled after the frame end. -/
theorem FrameCourse.slot_after {s v u : State} (h : FrameCourse s v []) {q : Points Drive}
    (hw : WaitCourse s (v.withDriven q) u []) {i : Nat} {d : Driving} (hd : s.sched.slot i = some d)
    (hno : ¬ s.Ends i d) :
    u.sched.slot i = some { d with count := if d.enrolled then d.count + 1 else d.count, enrolled := true } := by
  rcases he : d.enrolled with _ | _
  · exact hw.enrolled i d hd he (by simp)
  · have hall : ∀ e, s.sched.slot i = some e → e.enrolled = true := fun e h => by
      rw [hd] at h
      cases h
      exact he
    rw [hw.other i hall]
    show v.sched.slot i = _
    rw [h.counted i d hd he (by simp) fun hl => hno ⟨hd, he, hl⟩]
    simp only [if_true, ← he]

/-- The drive port as R130, R144 and R155 give it from the levels, tables and slots of `s`. -/
def State.DrivenAs (s : State) (port : Points Drive) : Prop :=
  (∀ i d x y, s.sched.slot i = some d → d.enrolled = true → d.rect.holds x y = true →
    let start := s.image.current.level x y
    let goal := s.image.goal.level x y
    let pair := start.val * 16 + goal.val
    let drive := Points.read Drive.hold port (1248 * y + x)
    (d.mode ≠ .clean → start = goal → drive = .hold) ∧
    (∀ data, (d.mode = .clean ∨ start ≠ goal) → s.drive.table d.mode d.band = .ready d.length data →
      let cell := (data.getD (64 * d.count + pair / 4) 0).toNat
      let code := if pair % 4 = 0 then cell / 64 else if pair % 4 = 1 then cell / 16 % 4
        else if pair % 4 = 2 then cell / 4 % 4 else cell % 4
      drive = if code = 1 then .darken else if code = 2 then .lighten else .hold)) ∧
  ∀ x y, x < 1248 → (∀ i d, s.sched.slot i = some d → d.enrolled = true → d.rect.holds x y = false) →
    Points.read Drive.hold port (1248 * y + x) = .hold

theorem PortCourse.drivenAs {s : State} {q : Points Drive} (h : PortCourse s [] q) (hsound : s.SchedulerSound) :
    s.DrivenAs q := by
  refine ⟨fun i d x y hd he hxy => ?_, fun x y hx hno => h.held x y hx fun i d hd he _ => hno i d hd he⟩
  have hread := h.driven hsound i d hd he (by simp) x y hxy
  have hspec := pixelDrive_spec (w := s.drive.table d.mode d.band) (d := d) (start := s.image.current.level x y)
    (goal := s.image.goal.level x y)
  rw [← hread] at hspec
  exact hspec

/-- The scheduler after a frame end drives where the scheduler before it did, if no slot ends. -/
theorem anyDriving_of_slots {q r : Scheduler} (h : ∀ i, r.slot i = none ↔ q.slot i = none) : r.anyDriving = q.anyDriving := by
  rw [Bool.eq_iff_iff, Scheduler.anyDriving_iff, Scheduler.anyDriving_iff]
  refine exists_congr fun i => ?_
  rw [← Option.ne_none_iff_exists', ← Option.ne_none_iff_exists', not_iff_not]
  exact h i

/-- A frame end with no slot at its end: the counts rise, the waiting slots are enrolled, and the next frame starts. -/
theorem State.frameEnds_of_no_end {s : State} (hcanon : s.Canonical) (hsound : s.SchedulerSound) (hrects : s.RectsOnPanel)
    (hf : s.drive.frame ≠ none) (hno : ∀ i d, ¬ s.Ends i d) :
    s.frameEnds = { s with
      sched := { s.sched with slots := s.frameEnds.sched.slots }
      drive := { s.drive with
        driven := s.frameEnds.drive.driven
        frame := if s.sched.anyDriving then some s.drive.period else none } } ∧
    (∀ i, s.frameEnds.sched.slot i = (s.sched.slot i).map fun d =>
      { d with count := if d.enrolled then d.count + 1 else d.count, enrolled := true }) ∧
    s.DrivenAs s.frameEnds.drive.driven := by
  obtain ⟨v, u, q, hv, -, heq, hcourse, hport, hwait⟩ := State.frameEnds_course hcanon hrects hf
  obtain ⟨hvrest, hvnone⟩ := afterFrames_of_no_end hno (List.range 8) s
  rw [← hv] at hvrest hvnone
  have hslot : ∀ i, u.sched.slot i = (s.sched.slot i).map fun d =>
      { d with count := if d.enrolled then d.count + 1 else d.count, enrolled := true } := fun i => by
    rcases hd : s.sched.slot i with _ | d
    · rw [hwait.other i (by simp [hd])]
      exact (hvnone i hd).trans hd
    · exact hcourse.slot_after hwait hd (hno i d)
  have hany : u.sched.anyDriving = s.sched.anyDriving := anyDriving_of_slots fun i => by
    rw [hslot, Option.map_eq_none_iff]
  have hu : u = { s with
      sched := { s.sched with slots := u.sched.slots }, drive := { s.drive with driven := q } } := by
    have := hwait.rest
    rw [hvrest] at this
    exact this
  refine ⟨?_, fun i => ?_, ?_⟩
  · rw [heq, hany]
    generalize u.sched.slots = slots at hu
    rw [hu]
  · rw [heq]
    exact hslot i
  · rw [heq, hwait.rest]
    exact hport.drivenAs hsound

theorem State.afterFrame_withDriven (p : Points Drive) (s u : State) (i : Nat) :
    s.afterFrame (u.withDriven p) i = (s.afterFrame u i).withDriven p := by
  unfold State.afterFrame
  simp only [State.completion_withDriven]
  cases s.sched.slot i with
  | none => rfl
  | some d =>
    simp only
    split
    · rfl
    · split <;> rfl

/-- Settles O54, from the course of the frame end. -/
theorem frameEndDrivesEachSlot : Obligations.FrameEndDrivesEachSlot := by
  unfold Obligations.FrameEndDrivesEachSlot
  intro s
  have runs : ∀ n, s.drive.frame = some n → exec .frameEnd s = .next s.frameEnds := fun n hn =>
    congrArg Host.Outcome.next (if_pos (by rw [hn]; rfl))
  refine ⟨fun hf => ?_, fun n hn hcanon hsound hrects hno => ?_, fun n hn hcanon hsound hrects => ?_⟩
  · exact congrArg Host.Outcome.next (if_neg (by simp [hf]))
  · have hf : s.drive.frame ≠ none := by simp [hn]
    exact ⟨_, runs n hn, State.frameEnds_of_no_end hcanon hsound hrects hf fun i d hd => hno i d hd.1 hd.2.1 hd.2.2⟩
  · have hf : s.drive.frame ≠ none := by simp [hn]
    obtain ⟨v, u, q, hv, hu, heq, hcourse, hport, hwait⟩ := State.frameEnds_course hcanon hrects hf
    have hdriven : s.frameEnds.drive.driven = q := by
      rw [heq, hwait.rest]
      rfl
    have himage : s.frameEnds.image = v.image := by
      rw [heq, hwait.rest]
      rfl
    have hslot : ∀ i, s.frameEnds.sched.slot i = u.sched.slot i := fun i => by
      rw [heq]
    have ends_iff : ∀ i d, (i < 8 ∧ s.sched.slot i = some d ∧ d.enrolled = true ∧ d.count + 1 = d.length) ↔
        s.Ends i d := fun i d => ⟨fun h => h.2, fun h => ⟨Scheduler.slot_lt h.1, h⟩⟩
    refine ⟨_, runs n hn, ?_, ?_, fun i d hd hno => ?_, fun i e hi he => ?_, fun x y hx hno => ?_,
      fun i d x y hd hxy => ?_, ?_, ?_, ?_⟩
    · rw [hdriven]
      exact hport.drivenAs hsound
    · rw [hdriven]
      have hnext : (List.range 8).foldl s.afterFrame (s.withDriven q) = v.withDriven q := by
        rw [hv]
        exact foldl_withDriven q (s.afterFrame_withDriven q) _ s
      rw [← hnext] at hu
      rw [heq, hu]
      rfl
    · rw [hslot]
      exact hcourse.slot_after hwait hd fun h => hno ((ends_iff i d).2 h)
    · have hall : ∀ d, s.sched.slot i = some d → d.enrolled = true := fun d hd => by
        rcases hi with hn | ⟨f, hf⟩
        · rw [hd] at hn
          cases hn
        · have := hf.2.1
          rw [hd] at this
          cases this
          exact hf.2.2.1
      rw [hslot, hwait.other i hall] at he
      exact hcourse.fresh i e he (hi.imp_right fun ⟨f, hf⟩ => ⟨f, (ends_iff i f).1 hf, by simp⟩)
    · rw [himage]
      exact hcourse.current x y hx fun i d hd _ => hno i d ((ends_iff i d).2 hd)
    · rw [himage]
      exact hcourse.ended hsound i d ((ends_iff i d).1 hd) (by simp) x y hxy
    · rintro ⟨i, d, hd⟩
      have := hcourse.flag ⟨i, d, (ends_iff i d).1 hd, by simp⟩
      rw [heq, hwait.rest]
      exact this
    · have hafter := congrArg State.drive heq
      have hu' : u.drive = { s.drive with driven := q } := by
        rw [hwait.rest, ← hcourse.drive]
        rfl
      rw [hu'] at hafter
      rw [hafter]
    · have hp := hcourse.panel
      rw [heq, hwait.rest]
      exact ⟨hp.target, hp.link, hp.faces, hp.setter, hp.lines, hp.marks, hp.renderer, hp.port, hp.power⟩

end Sys2Proof.Machine
end

section
/-! PROOF. Completion, the settle timer and quiet (8.5, 8.6). -/

namespace Sys2Proof.Machine

/-! ### Zones -/

theorem Rect.touchesZone_iff {r : Rect} (h : r.y0 ≤ r.y1) (z : Nat) :
    r.touchesZone z = true ↔ ∃ y, r.y0 ≤ y ∧ y ≤ r.y1 ∧ y / 208 = z := by
  simp only [Rect.touchesZone, Config.zoneRows, Bool.and_eq_true, decide_eq_true_eq]
  constructor
  · rintro ⟨h1, h2⟩
    exact ⟨max r.y0 (208 * z), by omega, by omega, by omega⟩
  · rintro ⟨y, h1, h2, rfl⟩
    omega

theorem Rect.inside_iff {a b : Rect} :
    a.inside b = true ↔ b.x0 ≤ a.x0 ∧ a.x1 ≤ b.x1 ∧ b.y0 ≤ a.y0 ∧ a.y1 ≤ b.y1 := by
  simp only [Rect.inside, Bool.and_eq_true, decide_eq_true_eq, and_assoc]

theorem Rect.holds_iff {r : Rect} {x y : Nat} : r.holds x y = true ↔ r.x0 ≤ x ∧ x ≤ r.x1 ∧ r.y0 ≤ y ∧ y ≤ r.y1 := by
  simp only [Rect.holds, Bool.and_eq_true, decide_eq_true_eq, and_assoc]

theorem zoneRect_inside_iff {r : Rect} (z : Nat) :
    (zoneRect z).inside r = true ↔ ∀ x y, x ≤ 1247 → y / 208 = z → r.holds x y = true := by
  simp only [Rect.inside_iff, Rect.holds_iff, zoneRect, Config.zoneRows]
  constructor
  · rintro h x y hx rfl
    omega
  · intro h
    have h1 := h 0 (208 * z) (by omega) (by omega)
    have h2 := h 1247 (208 * z + 207) (by omega) (by omega)
    omega

theorem zoneRect_inside_touches {r : Rect} {z : Nat} (h : (zoneRect z).inside r = true) : r.touchesZone z = true := by
  rw [Rect.inside_iff] at h
  simp only [zoneRect, Config.zoneRows] at h
  rw [Rect.touchesZone_iff (by omega)]
  exact ⟨208 * z, by omega, by omega, by omega⟩

/-! ### Quiet -/

theorem Supply.startIdle_eq (p : Supply) : p.startIdle =
    { p with idle := if p.state = .on ∧ p.settings.idleDelay ≠ 0 then some (10 * p.settings.idleDelay) else p.idle } := by
  unfold Supply.startIdle
  split <;> rfl

theorem State.reportQuiet_eq (s : State) : s.reportQuiet = ({ s with
    sched := { s.sched with settle := none }
    supply := { s.supply with
      idle := if s.supply.state = SupplyState.on ∧ s.supply.settings.idleDelay ≠ 0 then
        some (10 * s.supply.settings.idleDelay) else s.supply.idle } } : State).raise .panelQuiet := by
  unfold State.reportQuiet
  rw [Supply.startIdle_eq]
  rfl

theorem tidyZones_of_none {s : State} (h : ∀ z, z < 8 → look s.sched.coarse z false = false) (zones : List Nat)
    (hz : ∀ z ∈ zones, z < 8) : zones.foldl State.tidyZone s = s := by
  induction zones with
  | nil => rfl
  | cons z rest ih =>
    obtain ⟨hz, hrest⟩ := List.forall_mem_cons.1 hz
    have : s.tidyZone z = s := if_neg (by simp [h z hz])
    rw [List.foldl_cons, this]
    exact ih hrest

theorem State.completion_eq (s : State) (i : Nat) (d : Driving) : s.completion i d =
    if (s.completeSlot i d).scan.sched.anyDriving = false ∧ (s.completeSlot i d).scan.sched.queue = [] then
      (s.completeSlot i d).scan.startSettle else (s.completeSlot i d).scan := by
  unfold State.completion
  simp only [Bool.and_eq_true, Bool.not_eq_true', List.isEmpty_iff]

/-- A slot alone is the one that an enrolment list names. -/
theorem Scheduler.enrolled_single {q : Scheduler} {i : Nat} {d : Driving} (hd : q.slot i = some d)
    (hno : ∀ k, k ≠ i → q.slot k = none) : q.enrolled d.enrolled = [i] ∧ q.enrolled (!d.enrolled) = [] := by
  have nodup : ∀ yes, (q.enrolled yes).Nodup := fun yes => List.nodup_range.filter _
  have only : ∀ k e, q.slot k = some e → k = i ∧ e = d := fun k e hk => by
    by_cases hki : k = i
    · rw [hki, hd] at hk
      cases hk
      exact ⟨hki, rfl⟩
    · rw [hno k hki] at hk
      cases hk
  constructor
  · refine List.perm_singleton.1 ((List.perm_ext_iff_of_nodup (nodup _) (List.nodup_singleton i)).2 fun k => ?_)
    rw [Scheduler.mem_enrolled, List.mem_singleton]
    constructor
    · rintro ⟨e, hk, -⟩
      exact (only k e hk).1
    · rintro rfl
      exact ⟨d, hd, rfl⟩
  · refine List.eq_nil_iff_forall_not_mem.2 fun k hk => ?_
    obtain ⟨e, hk, he⟩ := Scheduler.mem_enrolled.1 hk
    rw [(only k e hk).2] at he
    simp at he

theorem completeSlot_quiet {s : State} {i : Nat} (d : Driving) (hno : ∀ k, k ≠ i → s.sched.slot k = none) (k : Nat) :
    (s.completeSlot i d).sched.slot k = none := by
  rw [State.completeSlot_slot]
  split
  · rfl
  · next h =>
    by_cases hk : k = i
    · exact s.sched.slot_of_ge (by omega)
    · exact hno k hk

/-- A last completion with nothing pending starts the settle timer (R134). -/
theorem State.completion_of_last {s : State} {i : Nat} {d : Driving} (hno : ∀ k, k ≠ i → s.sched.slot k = none)
    (hq : s.sched.queue = []) (ht : s.sched.settings.settleTime ≠ 0) :
    s.completion i d = { s.completeSlot i d with
      sched := { (s.completeSlot i d).sched with
        settle := some s.sched.settings.settleTime, tempHold := false, waveHold := false } } := by
  have hscan : (s.completeSlot i d).scan = { s.completeSlot i d with
      sched := { (s.completeSlot i d).sched with tempHold := false, waveHold := false } } := State.scan_of_empty hq
  have hquiet : (s.completeSlot i d).scan.sched.anyDriving = false ∧ (s.completeSlot i d).scan.sched.queue = [] := by
    rw [hscan]
    exact ⟨(Scheduler.anyDriving_eq_false _).2 (completeSlot_quiet d hno), hq⟩
  rw [State.completion_eq, if_pos hquiet, hscan]
  exact if_neg ht

/-- Settles O55, clause by clause. -/
theorem completionLeadsToQuiet : Obligations.CompletionLeadsToQuiet := by
  unfold Obligations.CompletionLeadsToQuiet
  refine ⟨fun s i d hcanon hpanel hi => ?_, fun s i d => ?_, fun s i n d hi hd he hend hno hq hf ht => ?_, fun s => ?_⟩
  · refine ⟨(s.completeSlot i d).image, (s.completeSlot i d).sched, rfl, rfl, fun x y hx => ?_, rfl, fun z hz => ?_⟩
    · exact Plane.level_copyRect _ _ _ _ x y hcanon.2.2.1 hcanon.2.1 hpanel.1 hpanel.2.1 hpanel.2.2.1 hx
    · have hghost : look (s.completeSlot i d).sched.ghost z 0 = ghostAfter d.mode d.rect z (look s.sched.ghost z 0) :=
        look_mapPlaces _ _ _ 0 0 hz
      have hcoarse : look (s.completeSlot i d).sched.coarse z false =
          coarseAfter d.mode d.rect z (look s.sched.coarse z false) := look_mapPlaces _ _ _ false false hz
      simp only [hghost, hcoarse, ← Rect.touchesZone_iff hpanel.2.2.1, ← zoneRect_inside_iff]
      have hinside : (zoneRect z).inside d.rect = true → d.rect.touchesZone z = true := zoneRect_inside_touches
      unfold ghostAfter coarseAfter
      refine ⟨fun hm ht => ?_, fun hm ht => ?_, fun hm hw => ?_, fun hm hw => ?_, fun hm hw => ?_, fun hm hw => ?_,
        fun ht => ?_⟩
      · simp [hm, ht]
      · simp [hm, ht]
      · simp [hm, hw, hinside hw]
      · simp [hm, hw]
      · cases hmode : d.mode <;> simp_all
      · cases hmode : d.mode <;> simp_all
      · have hw : ¬ (zoneRect z).inside d.rect = true := fun h => ht (hinside h)
        cases hmode : d.mode <;> simp [ht, hw]
  · have quiet_iff : ((s.completeSlot i d).scan.sched.queue = [] ∧
        ∀ k, k < 8 → (s.completeSlot i d).scan.sched.slot k = none) ↔
        ((s.completeSlot i d).scan.sched.anyDriving = false ∧ (s.completeSlot i d).scan.sched.queue = []) := by
      rw [Scheduler.anyDriving_eq_false, and_comm]
      refine and_congr_left fun _ => ⟨fun h k => ?_, fun h k _ => h k⟩
      by_cases hk : k < 8
      · exact h k hk
      · exact Scheduler.slot_of_ge _ (by omega)
    rw [State.completion_eq]
    refine ⟨fun h => if_neg fun hc => h (quiet_iff.2 hc), fun h hs => ?_, fun h hs => ?_⟩
    · exact (if_pos (quiet_iff.1 h)).trans (if_neg hs)
    · exact (if_pos (quiet_iff.1 h)).trans (if_pos hs)
  · obtain ⟨henrolled, hwaiting⟩ := Scheduler.enrolled_single hd hno
    rw [he] at henrolled hwaiting
    have hruns : exec .frameEnd s = .next s.frameEnds := congrArg Host.Outcome.next (if_pos (by rw [hf]; rfl))
    have hdrives : [i].foldl State.driveSlot (s.withDriven []) =
        (s.completion i d).withDriven (s.framePixels d []) := by
      rw [List.foldl_cons, List.foldl_nil, State.driveSlot_eq hd, if_pos hend]
    rw [hruns]
    refine congrArg Host.Outcome.next ?_
    have hends : s.frameEnds = { (s.completion i d).withDriven (s.framePixels d []) with
        drive := { ((s.completion i d).withDriven (s.framePixels d [])).drive with
          frame := if (s.completion i d).sched.anyDriving then some (s.completion i d).drive.period else none } } := by
      have hperiod : s.frameEnds = { ([i].foldl State.driveSlot (s.withDriven [])) with
          drive := { ([i].foldl State.driveSlot (s.withDriven [])).drive with
            frame := if ([i].foldl State.driveSlot (s.withDriven [])).sched.anyDriving then
              some ([i].foldl State.driveSlot (s.withDriven [])).drive.period else none } } := by
        unfold State.frameEnds
        rw [henrolled, show s.sched.enrolled false = [] from hwaiting]
        rfl
      rw [hperiod, hdrives]
      rfl
    have hany : (s.completion i d).sched.anyDriving = false := by
      rw [State.completion_of_last hno hq ht]
      exact (Scheduler.anyDriving_eq_false _).2 (completeSlot_quiet d hno)
    rw [hends, hany, State.completion_of_last hno hq ht]
    rfl
  · refine ⟨fun h => congrArg Host.Outcome.next (if_neg (by simp [h])),
      fun h => congrArg Host.Outcome.next (if_pos (Option.isSome_iff_ne_none.2 h)), fun h => ?_, fun h => ?_⟩
    · rw [State.settleExpires_eq, ← State.reportQuiet_eq]
      rcases h with h | h
      · rw [if_neg (by simp [h])]
      · rw [tidyZones_of_none (s := s.reportQuiet) h _ fun z hz => List.mem_range.1 hz, ite_self]
    · rw [State.settleExpires_eq, if_pos h, ← State.reportQuiet_eq]
      rfl

end Sys2Proof.Machine
end

section
/-! PROOF. The pending queue (8.1, 8.2): what a request does to it, and the rectangles that meet, touch and merge. -/

namespace Sys2Proof.Machine

/-! ### The queue that a request leaves -/

theorem mergeYoungest_eq_none {r : Request} {q : List Request} (h : ∀ f ∈ q, f.qualifies r = false) :
    mergeYoungest r q = none := by
  induction q with
  | nil => rfl
  | cons e rest ih =>
    obtain ⟨he, hrest⟩ := List.forall_mem_cons.1 h
    simp [mergeYoungest, ih hrest, he]

theorem mergeYoungest_append {r e : Request} {b : List Request} (he : e.qualifies r = true)
    (hb : ∀ f ∈ b, f.qualifies r = false) (a : List Request) :
    mergeYoungest r (a ++ e :: b) = some (a ++ e.absorb r :: b) := by
  induction a with
  | nil => simp [mergeYoungest, mergeYoungest_eq_none hb, he]
  | cons f a ih => simp [mergeYoungest, ih]

theorem squeezeYoungest_append (r e : Request) (a : List Request) :
    squeezeYoungest r (a ++ [e]) = a ++ [e.squeeze r] := by
  induction a with
  | nil => rfl
  | cons f a ih =>
    cases a with
    | nil => rfl
    | cons g a => exact congrArg (f :: ·) ih

/-- The entry has the request's mode, meets or touches its rectangle, and has its columns or its rows (R118). -/
theorem Request.qualifies_iff (e r : Request) : e.qualifies r = true ↔
    e.mode = r.mode ∧ (e.rect.intersects r.rect = true ∨ e.rect.sharesEdge r.rect = true) ∧
      ((e.rect.x0 = r.rect.x0 ∧ e.rect.x1 = r.rect.x1) ∨ (e.rect.y0 = r.rect.y0 ∧ e.rect.y1 = r.rect.y1)) := by
  simp only [Request.qualifies, Rect.sameColumns, Rect.sameRows, Bool.and_eq_true, Bool.or_eq_true, beq_iff_eq, and_assoc]

/-! ### Rectangles -/

theorem Rect.intersects_iff {a b : Rect} :
    a.intersects b = true ↔ a.x0 ≤ b.x1 ∧ b.x0 ≤ a.x1 ∧ a.y0 ≤ b.y1 ∧ b.y0 ≤ a.y1 := by
  simp only [Rect.intersects, Bool.and_eq_true, decide_eq_true_eq, and_assoc]

theorem Rect.sharesEdge_iff {a b : Rect} : a.sharesEdge b = true ↔ ¬ a.intersects b = true ∧
    ((a.y0 ≤ b.y1 ∧ b.y0 ≤ a.y1 ∧ (a.x1 + 1 = b.x0 ∨ b.x1 + 1 = a.x0)) ∨
      (a.x0 ≤ b.x1 ∧ b.x0 ≤ a.x1 ∧ (a.y1 + 1 = b.y0 ∨ b.y1 + 1 = a.y0))) := by
  simp only [Rect.sharesEdge, Bool.and_eq_true, Bool.or_eq_true, Bool.not_eq_true', decide_eq_true_eq, beq_iff_eq,
    and_assoc, Bool.not_eq_true]

section
variable {a b : Rect} (ha : a.onPanel) (hb : b.onPanel)
include ha hb

theorem Rect.intersects_iff_pixel : a.intersects b = true ↔ ∃ x y, a.holds x y = true ∧ b.holds x y = true := by
  obtain ⟨ha1, -, ha2, -⟩ := ha
  obtain ⟨hb1, -, hb2, -⟩ := hb
  simp only [Rect.intersects_iff, Rect.holds_iff]
  constructor
  · intro h
    exact ⟨max a.x0 b.x0, max a.y0 b.y0, by omega, by omega⟩
  · rintro ⟨x, y, h1, h2⟩
    omega

/-- Rectangles share an edge where they share no pixel and two pixels of theirs stand side by side (R2). -/
theorem Rect.sharesEdge_iff_pixel : a.sharesEdge b = true ↔
    (∀ x y, ¬ (a.holds x y = true ∧ b.holds x y = true)) ∧ ∃ x y, a.holds x y = true ∧
      (b.holds (x + 1) y = true ∨ b.holds x (y + 1) = true ∨ (1 ≤ x ∧ b.holds (x - 1) y = true) ∨
        (1 ≤ y ∧ b.holds x (y - 1) = true)) := by
  rw [Rect.sharesEdge_iff, Rect.intersects_iff_pixel ha hb]
  simp only [not_exists]
  refine and_congr_right fun hno => ?_
  have hapart : ¬ (a.x0 ≤ b.x1 ∧ b.x0 ≤ a.x1 ∧ a.y0 ≤ b.y1 ∧ b.y0 ≤ a.y1) := by
    rw [← Rect.intersects_iff, Rect.intersects_iff_pixel ha hb]
    simpa using hno
  obtain ⟨ha1, -, ha2, -⟩ := ha
  obtain ⟨hb1, -, hb2, -⟩ := hb
  simp only [Rect.holds_iff]
  constructor
  · rintro (⟨h1, h2, h | h⟩ | ⟨h1, h2, h | h⟩)
    · exact ⟨a.x1, max a.y0 b.y0, by omega, .inl (by omega)⟩
    · exact ⟨a.x0, max a.y0 b.y0, by omega, .inr (.inr (.inl (by omega)))⟩
    · exact ⟨max a.x0 b.x0, a.y1, by omega, .inr (.inl (by omega))⟩
    · exact ⟨max a.x0 b.x0, a.y0, by omega, .inr (.inr (.inr (by omega)))⟩
  · rintro ⟨x, y, hxy, h | h | h | h⟩ <;> omega

/-- Rectangles that meet or touch and have one span in common have no other pixel in their bounding box (R118). -/
theorem Rect.bounding_holds (hmeet : a.intersects b = true ∨ a.sharesEdge b = true)
    (hspan : (a.x0 = b.x0 ∧ a.x1 = b.x1) ∨ (a.y0 = b.y0 ∧ a.y1 = b.y1)) (x y : Nat) :
    (a.bounding b).holds x y = true ↔ a.holds x y = true ∨ b.holds x y = true := by
  obtain ⟨ha1, -, ha2, -⟩ := ha
  obtain ⟨hb1, -, hb2, -⟩ := hb
  rw [Rect.sharesEdge_iff, Rect.intersects_iff] at hmeet
  simp only [Rect.holds_iff, Rect.bounding]
  omega

end

/-- Settles O50: the queue that each kind of request leaves, and the rectangles by their pixels. -/
theorem requestsMergeJoinOrSqueeze : Obligations.RequestsMergeJoinOrSqueeze := by
  unfold Obligations.RequestsMergeJoinOrSqueeze
  refine ⟨fun s r => ?_, fun a b ha hb => ⟨Rect.intersects_iff_pixel ha hb, Rect.sharesEdge_iff_pixel ha hb,
    Rect.bounding_holds ha hb⟩⟩
  have none_qualifies : ∀ {q : List Request}, (∀ f ∈ q, ¬ (f.mode = r.mode ∧
      (f.rect.intersects r.rect = true ∨ f.rect.sharesEdge r.rect = true) ∧
      ((f.rect.x0 = r.rect.x0 ∧ f.rect.x1 = r.rect.x1) ∨ (f.rect.y0 = r.rect.y0 ∧ f.rect.y1 = r.rect.y1)))) →
      ∀ f ∈ q, f.qualifies r = false := fun h f hf => by
    rw [← Bool.not_eq_true, Request.qualifies_iff]
    exact h f hf
  refine ⟨fun hgone => State.post_of_discards hgone, fun a e b hgone hsplit hfits hno => ?_, fun hgone hno hlen => ?_,
    fun a e hgone hno hlen hsplit => ?_⟩
  · have hmerge : mergeYoungest r s.sched.queue = some (a ++ e.absorb r :: b) := by
      rw [hsplit]
      exact mergeYoungest_append ((Request.qualifies_iff e r).2 hfits) (none_qualifies hno) a
    rw [State.post_of_not_discards hgone, State.takeRequest_of_merges hmerge]
    rfl
  · rw [State.post_of_not_discards hgone,
      State.takeRequest_of_room (mergeYoungest_eq_none (none_qualifies hno)) hlen]
    rfl
  · rw [State.post_of_not_discards hgone,
      State.takeRequest_of_full (mergeYoungest_eq_none (none_qualifies hno)) hlen, hsplit, squeezeYoungest_append]
    rfl

end Sys2Proof.Machine
end

section
/-! PROOF. How a scan judges the queue and a latch decides (8.3, 8.4). -/

namespace Sys2Proof.Machine

theorem PanelDrive.usable_iff (d : PanelDrive) :
    d.usable = true ↔ ∃ t, d.reading = some t ∧ d.bands.tmin ≤ t ∧ t ≤ d.bands.tmax := by
  unfold PanelDrive.usable
  cases h : d.reading with
  | none => simp
  | some t => simp

theorem PanelDrive.usable_eq_false (d : PanelDrive) :
    d.usable = false ↔ ¬ ∃ t, d.reading = some t ∧ d.bands.tmin ≤ t ∧ t ≤ d.bands.tmax := by
  rw [← d.usable_iff, Bool.not_eq_true]

/-- What is found in a list by rising rank is the lowest that passes. -/
theorem find?_of_rank {p : Mode → Bool} {c : Mode} : ∀ {l : List Mode}, l.Pairwise (fun a b => a.rank < b.rank) →
    (l.find? p = some c ↔ c ∈ l ∧ p c = true ∧ ∀ e ∈ l, e.rank < c.rank → ¬ p e = true)
  | [], _ => by simp
  | a :: l, h => by
    obtain ⟨ha, hl⟩ := List.pairwise_cons.1 h
    rw [List.find?_cons]
    rcases hp : p a with _ | _
    · rw [find?_of_rank hl]
      constructor
      · rintro ⟨hc, hpc, hlow⟩
        exact ⟨List.mem_cons_of_mem _ hc, hpc, List.forall_mem_cons.2 ⟨fun _ => by simp [hp], hlow⟩⟩
      · rintro ⟨hc, hpc, hlow⟩
        rcases List.mem_cons.1 hc with rfl | hc
        · simp [hp] at hpc
        · exact ⟨hc, hpc, (List.forall_mem_cons.1 hlow).2⟩
    · simp only [Option.some.injEq]
      constructor
      · rintro rfl
        exact ⟨List.mem_cons_self .., hp, List.forall_mem_cons.2
          ⟨fun h => absurd h (Nat.lt_irrefl _), fun e he hlt => absurd (ha e he) (Nat.lt_asymm hlt)⟩⟩
      · rintro ⟨hc, -, hlow⟩
        rcases List.mem_cons.1 hc with rfl | hc
        · rfl
        · exact absurd hp ((List.forall_mem_cons.1 hlow).1 (ha c hc))

/-- The table of the mode, or that of the weakest stronger mode that is READY (R128). -/
theorem PanelDrive.chooseMode_iff (d : PanelDrive) (m c : Mode) : d.chooseMode m = some c ↔
    m.rank ≤ c.rank ∧ d.isReady c = true ∧ ∀ e : Mode, m.rank ≤ e.rank → e.rank < c.rank → ¬ d.isReady e = true := by
  have hall : ∀ e : Mode, e ∈ [Mode.fast, Mode.gray, Mode.clean] := fun e => by cases e <;> decide
  unfold PanelDrive.chooseMode
  rw [find?_of_rank (by decide)]
  simp only [hall, Bool.and_eq_true, decide_eq_true_eq, true_and, forall_const, and_assoc, not_and]
  exact and_congr_right fun _ => and_congr_right fun _ =>
    ⟨fun h e h1 h2 => h e h2 h1, fun h e h2 h1 => h e h1 h2⟩

theorem PanelDrive.chooseMode_eq_none (d : PanelDrive) (m : Mode) :
    d.chooseMode m = none ↔ ∀ c : Mode, m.rank ≤ c.rank → ¬ d.isReady c = true := by
  have hall : ∀ e : Mode, e ∈ [Mode.fast, Mode.gray, Mode.clean] := fun e => by cases e <;> decide
  unfold PanelDrive.chooseMode
  rw [List.find?_eq_none]
  simp only [hall, Bool.and_eq_true, decide_eq_true_eq, forall_const, not_and]

/-- A zone that the rectangle touches is worn (R126). -/
theorem Scheduler.ghosted_iff (q : Scheduler) {r : Rect} (h : r.y0 ≤ r.y1) : q.ghosted r = true ↔
    ∃ z, z < 8 ∧ (∃ y, r.y0 ≤ y ∧ y ≤ r.y1 ∧ y / 208 = z) ∧ q.settings.ghostLimit ≤ look q.ghost z 0 := by
  simp only [Scheduler.ghosted, List.any_eq_true, List.mem_range, Bool.and_eq_true, decide_eq_true_eq,
    Rect.touchesZone_iff h]

theorem Rect.zoneUnion_holds {r : Rect} (h : r.y0 ≤ r.y1) (x y : Nat) : r.zoneUnion.holds x y = true ↔
    x ≤ 1247 ∧ ∃ k, r.y0 ≤ k ∧ k ≤ r.y1 ∧ k / 208 = y / 208 := by
  rw [← Rect.touchesZone_iff h, Rect.holds_iff, Rect.touchesZone_iff h]
  simp only [Rect.zoneUnion, Config.zoneRows]
  constructor
  · rintro ⟨-, h1, h2, h3⟩
    exact ⟨h1, max r.y0 (208 * (y / 208)), by omega, by omega, by omega⟩
  · rintro ⟨h1, k, h2, h3, h4⟩
    omega

/-- The promotion of an entry at its latch, case by case (R126). -/
theorem Request.promote_cases (e : Request) (q : Scheduler) (h : e.rect.y0 ≤ e.rect.y1) :
    let touches := fun z => ∃ y, e.rect.y0 ≤ y ∧ y ≤ e.rect.y1 ∧ y / 208 = z
    let worn := q.settings.ghostLimit ≠ 0 ∧ ∃ z, z < 8 ∧ touches z ∧ q.settings.ghostLimit ≤ look q.ghost z 0
    (e.promoted = true → e.promote q = e) ∧
    (e.promoted = false → q.panelKnown = false →
      e.promote q = { e with rect := ⟨0, 0, 1247, 1663⟩, mode := .clean, promoted := true }) ∧
    (e.promoted = false → q.panelKnown = true → worn → ∃ u, e.promote q =
      { e with rect := u, mode := .clean, promoted := true } ∧
      ∀ x y, u.holds x y = true ↔ x ≤ 1247 ∧ touches (y / 208)) ∧
    (e.promoted = false → q.panelKnown = true → ¬ worn → e.promote q = e) := by
  unfold Request.promote
  refine ⟨fun hp => if_pos hp, fun hp hk => ?_, fun hp hk hw => ⟨e.rect.zoneUnion, ?_, Rect.zoneUnion_holds h⟩,
    fun hp hk hw => ?_⟩
  · rw [if_neg (by simp [hp]), if_pos (by simp [hk])]
    rfl
  · rw [if_neg (by simp [hp]), if_neg (by simp [hk]), if_pos ⟨hw.1, (q.ghosted_iff h).2 hw.2⟩]
  · rw [if_neg (by simp [hp]), if_neg (by simp [hk]), if_neg fun hc => hw ⟨hc.1, (q.ghosted_iff h).1 hc.2⟩]

theorem Scheduler.freeSlot_eq_some {q : Scheduler} {i : Nat} (hi : i < 8) (hfree : q.slot i = none)
    (hlow : ∀ k, k < i → q.slot k ≠ none) : q.freeSlot = some i := by
  rcases h : q.freeSlot with _ | k
  · exact absurd hfree (Scheduler.freeSlot_eq_none.1 h i hi)
  · have hle := Scheduler.freeSlot_le h hfree
    rcases Nat.lt_or_ge k i with hlt | hge
    · exact absurd (Scheduler.freeSlot_some h).2 (hlow k hlt)
    · rw [show k = i by omega]

/-- Settles O52: the scan, the promotion, the choice of a table and the judging branch by branch. -/
theorem scanAndLatchDecide : Obligations.ScanAndLatchDecide := by
  unfold Obligations.ScanAndLatchDecide
  intro s
  refine ⟨State.scan_of_empty, fun hq hu ht => State.scan_of_held hq (s.drive.usable_eq_false.2 hu) ht,
    fun hq hu ht => State.scan_of_unusable hq (s.drive.usable_eq_false.2 hu) ht, fun hq hu => ?_,
    fun e he => e.promote_cases s.sched he, fun m => ?_, rfl, fun older rest e want => ⟨rfl, fun hfull =>
      scanEntries_full (Scheduler.freeSlot_eq_none.2 hfull), fun i hi hfree hlow => ?_⟩⟩
  · have hu := s.drive.usable_iff.2 hu
    refine ⟨fun hs => State.scan_of_on hq hu hs, fun hs => State.scan_of_waiting hq hu hs, fun hs hp => ?_,
      fun hs hp hf => ?_, fun hs hp hf => ?_⟩
    · rw [State.scan_of_off hq hu hs]
      exact State.askPower_of_low hp
    · rw [State.scan_of_off hq hu hs]
      exact State.askPower_of_filter hp hf
    · rw [State.scan_of_off hq hu hs]
      exact State.askPower_of_ready hp hf
  · simp only [← PanelDrive.isReady_iff]
    exact ⟨fun c => s.drive.chooseMode_iff m c, s.drive.chooseMode_eq_none m⟩
  · have hslot := Scheduler.freeSlot_eq_some hi hfree hlow
    have clear : ∀ {r : Rect}, ¬ ((∃ i d, s.sched.slot i = some d ∧ r.intersects d.rect = true) ∨
        ∃ o ∈ older, r.intersects o.rect = true) → s.sched.blocked older r = false := fun h => by
      rw [← Bool.not_eq_true, Scheduler.blocked_iff]
      exact h
    refine ⟨fun hb => scanEntries_blocked hslot (Scheduler.blocked_iff.2 hb),
      fun hb hm => scanEntries_wants hslot (clear hb) hm, fun hb hm => ?_⟩
    refine ⟨fun hr hfar => scanEntries_far hslot (clear hb) hm hr (Scheduler.blocked_iff.2 hfar),
      fun hnear hp => scanEntries_promoted_wants hslot (clear hb) hm ?_ hp, fun m hnear hp => ?_⟩
    · rintro ⟨h1, h2⟩
      exact hnear.elim h1 fun h => h (Scheduler.blocked_iff.1 h2)
    · obtain ⟨n, data, htable⟩ := PanelDrive.chooseMode_ready hp
      refine ⟨n, data, htable, ?_⟩
      have hfar : ¬ ((e.promote s.sched).rect ≠ e.rect ∧ s.sched.blocked older (e.promote s.sched).rect = true) := by
        rintro ⟨h1, h2⟩
        exact hnear.elim h1 fun h => h (Scheduler.blocked_iff.1 h2)
      rw [scanEntries_starts hslot (clear hb) hm hfar hp, State.startIn_eq]
      have hframe : some (s.drive.frame.getD s.drive.period) =
          if s.drive.frame = none then some s.drive.period else s.drive.frame := by
        cases s.drive.frame <;> simp
      simp only [htable, Wave.readyLength, Option.getD_some, hframe]

end Sys2Proof.Machine
end

section
/-! PROOF. The supply controller follows power-good (10.1), and a fault's repairs go in at the head of the queue (8.2, 8.9). -/

namespace Sys2Proof.Machine

/-! ### Repairs -/

theorem squeezeTail_append (a : List Request) (older younger : Request) :
    squeezeTail (a ++ [older, younger]) = a ++ [older.squeezeTail younger] := by
  induction a with
  | nil => rfl
  | cons f a ih =>
    cases a with
    | nil => rfl
    | cons g a =>
      have : ∀ l : List Request, l ≠ [] → squeezeTail (f :: g :: l) = f :: squeezeTail (g :: l) := fun l hl => by
        cases l with
        | nil => exact absurd rfl hl
        | cons => rfl
      exact (this _ (by simp)).trans (congrArg (f :: ·) ih)

theorem squeezeTail_take : ∀ (q : List Request) (k : Nat), k + 2 ≤ q.length → (squeezeTail q).take k = q.take k
  | [], k, h => by simp at h
  | [_], k, h => by simp at h
  | [_, _], k, h => by
    have : k = 0 := by simpa using h
    simp [this]
  | a :: b :: c :: rest, 0, _ => rfl
  | a :: b :: c :: rest, k + 1, h => by
    have := squeezeTail_take (b :: c :: rest) k (by simpa using h)
    simp only [squeezeTail, List.take_succ_cons] at this ⊢
    rw [this]

theorem State.insertRepair_of_room {s : State} (before : Nat) (r : Request) (h : s.sched.queue.length < 16) :
    s.insertRepair before r = { s with sched := { s.sched with
      queue := s.sched.queue.take before ++ r :: s.sched.queue.drop before } } := by
  unfold State.insertRepair
  rw [if_pos h]

theorem State.insertRepair_of_full {s : State} (before : Nat) (r : Request) (h : 16 ≤ s.sched.queue.length) :
    s.insertRepair before r = ({ s with sched := { s.sched with
      queue := (squeezeTail s.sched.queue).take before ++ r :: (squeezeTail s.sched.queue).drop before } } : State).raise
      .queueSqueeze := by
  unfold State.insertRepair
  rw [if_neg (Nat.not_lt.2 h)]
  rfl

theorem insertRepairs_eq_foldl (repairs : List Request) (k : Nat) (s : State) :
    insertRepairs k repairs s = (repairs.zipIdx k).foldl (fun v p => v.insertRepair p.2 p.1) s := by
  induction repairs generalizing k s with
  | nil => rfl
  | cons r rest ih => exact ih (k + 1) _

/-- With room for all of them the repairs stand ahead of the queue, in order (R120). -/
theorem insertRepairs_of_room (repairs done rest : List Request) (s : State) (hq : s.sched.queue = done ++ rest)
    (hlen : (done ++ rest).length + repairs.length ≤ 16) : insertRepairs done.length repairs s =
      { s with sched := { s.sched with queue := done ++ repairs ++ rest } } := by
  induction repairs generalizing done s with
  | nil =>
    rw [List.append_nil, ← hq]
    rfl
  | cons r repairs ih =>
    simp only [List.length_cons] at hlen
    have hstep : s.insertRepair done.length r =
        { s with sched := { s.sched with queue := (done ++ [r]) ++ rest } } := by
      rw [State.insertRepair_of_room _ _ (by rw [hq]; omega), hq, List.take_left, List.drop_left]
      simp
    have := ih (done ++ [r]) (s.insertRepair done.length r) (by rw [hstep])
      (by simp only [List.length_append, List.length_singleton] at hlen ⊢; omega)
    rw [List.length_append, List.length_singleton] at this
    rw [insertRepairs, this, hstep]
    simp

/-- However full the queue, the repairs stand ahead in order; beyond 16 the youngest entries are squeezed (R120). -/
theorem insertRepairs_of_full (repairs : List Request) (before : Nat) (s : State) (hbefore : before + repairs.length ≤ 8)
    (hlen : s.sched.queue.length ≤ 16) (hk : before ≤ s.sched.queue.length) :
    let t := insertRepairs before repairs s
    t.sched.queue.length = min 16 (s.sched.queue.length + repairs.length) ∧
    t.sched.queue.take (before + repairs.length) = s.sched.queue.take before ++ repairs ∧
    (16 < s.sched.queue.length + repairs.length → t.raised .queueSqueeze = true) ∧ s.KeepsFlags t := by
  induction repairs generalizing before s with
  | nil =>
    refine ⟨?_, by simp [insertRepairs], fun h => ?_, .refl s⟩
    · simp only [insertRepairs, List.length_nil]
      omega
    · simp only [List.length_nil] at h
      omega
  | cons r repairs ih =>
    simp only [List.length_cons] at hbefore ⊢
    have hroom : ∃ q : List Request, q.take before = s.sched.queue.take before ∧ before ≤ q.length ∧ q.length ≤ 15 ∧
        q.length + 1 = min 16 (s.sched.queue.length + 1) ∧ (s.insertRepair before r).sched.queue = q.take before ++ r :: q.drop before ∧
        s.KeepsFlags (s.insertRepair before r) ∧
        (16 < s.sched.queue.length + 1 → (s.insertRepair before r).raised .queueSqueeze = true) := by
      rcases Nat.lt_or_ge s.sched.queue.length 16 with h | h
      · refine ⟨s.sched.queue, rfl, hk, by omega, by omega, ?_, ?_, by omega⟩
        · rw [State.insertRepair_of_room _ _ h]
        · rw [State.insertRepair_of_room _ _ h]
          exact .refl s
      · have hq := squeezeTail_length s.sched.queue
        rw [if_pos (by omega)] at hq
        refine ⟨squeezeTail s.sched.queue, squeezeTail_take _ _ (by omega), by omega, by omega, by omega, ?_, ?_, fun _ => ?_⟩
        · rw [State.insertRepair_of_full _ _ h]
          rfl
        · rw [State.insertRepair_of_full _ _ h]
          exact State.raise_keepsFlags _ _
        · rw [State.insertRepair_of_full _ _ h, State.raised, State.raise_getLsbD _ _ (by decide)]
          simp
    obtain ⟨q, htake, hle, h15, hqlen, hqueue, hflags, hraised⟩ := hroom
    have hlen' : (s.insertRepair before r).sched.queue.length = q.length + 1 := by
      rw [hqueue]
      simp only [List.length_append, List.length_cons, List.length_take, List.length_drop]
      omega
    obtain ⟨h1, h2, h3, h4⟩ := ih (before + 1) (s.insertRepair before r) (by omega) (by omega) (by omega)
    refine ⟨?_, ?_, fun h => ?_, hflags.trans h4⟩
    · show (insertRepairs (before + 1) repairs (s.insertRepair before r)).sched.queue.length = _
      rw [h1]
      omega
    · show (insertRepairs (before + 1) repairs (s.insertRepair before r)).sched.queue.take _ = _
      rw [show before + (repairs.length + 1) = before + 1 + repairs.length by omega, h2, hqueue, htake, ← htake]
      have : (q.take before).length = before := by simp [hle]
      rw [List.take_append, this]
      simp
    · by_cases hfull : 16 < s.sched.queue.length + 1
      · exact h4 _ (hraised hfull)
      · exact h3 (by omega)

/-! ### A fault -/

/-- The supply as a fault leaves it, and its flag (R161, R162). -/
def State.failed (s : State) : State :=
  ({ s with supply := { s.supply with state := .fault, powerUp := none, filter := none, idle := none } } : State).raise
    .supplyFault

/-- Every slot aborted and the frame stopped (R140, R154). -/
def State.aborted (s : State) : State := { s with
  sched := { s.sched with slots := Vector.replicate 8 none }, drive := { s.drive with frame := none } }

theorem State.enterFault_of_idle {s : State} (h : s.sched.repairs = []) : s.enterFault = s.failed := by
  simp only [State.enterFault, State.abortSlots, State.raise_sched, h]
  rfl

theorem State.enterFault_of_driving {s : State} (h : s.sched.repairs ≠ []) :
    s.enterFault = (insertRepairs 0 s.sched.repairs s.failed.aborted).cancelQuiet.scan := by
  show s.failed.abortSlots = _
  unfold State.abortSlots
  split
  · next hnil => exact absurd hnil h
  · rfl

/-- A scan in FAULT of a queue with entries at most raises TEMP_RANGE (R124). -/
theorem State.scan_of_fault {s : State} (hs : s.supply.state = .fault) (hq : s.sched.queue ≠ []) :
    ∃ th ev, s.scan = { s with sched := { s.sched with tempHold := th }, events := ev } := by
  rcases hu : s.drive.usable with _ | _
  · rcases ht : s.sched.tempHold with _ | _
    · exact ⟨true, _, State.scan_of_unusable hq hu ht⟩
    · exact ⟨s.sched.tempHold, s.events, State.scan_of_held hq hu ht⟩
  · exact ⟨false, s.events, State.scan_of_waiting hq hu (.inr hs)⟩

theorem Scheduler.repairs_length (q : Scheduler) : q.repairs.length ≤ 8 :=
  (List.length_filterMap_le _ _).trans (by simp)

/-- A fault with more repairs than the queue has room for leaves 16 entries, the repairs first (R120). -/
theorem State.enterFault_of_full {s : State} (h : s.sched.repairs ≠ []) (hlen : s.sched.queue.length ≤ 16)
    (hfull : 16 < s.sched.queue.length + s.sched.repairs.length) :
    let t := s.enterFault
    t.sched.queue.length = 16 ∧ t.sched.queue.take s.sched.repairs.length = s.sched.repairs ∧
    t.raised .queueSqueeze = true ∧ (∀ i, t.sched.slot i = none) ∧ t.drive = { s.drive with frame := none } ∧
    t.supply = s.failed.supply ∧ t.image = s.image ∧ t.sched.ghost = s.sched.ghost ∧ t.sched.coarse = s.sched.coarse ∧
    t.sched.panelKnown = s.sched.panelKnown := by
  obtain ⟨hqlen, htake, hraised, -⟩ := insertRepairs_of_full s.sched.repairs 0 s.failed.aborted
    (by have := s.sched.repairs_length; omega) hlen (Nat.zero_le _)
  obtain ⟨q, e, heq, -, -⟩ := insertRepairs_eq s.sched.repairs 0 s.failed.aborted
  have hq : 16 ≤ q.length := by
    rw [heq] at hqlen
    have : s.failed.aborted.sched.queue.length = s.sched.queue.length := rfl
    simp only at hqlen
    omega
  have hflags := (insertRepairs 0 s.sched.repairs s.failed.aborted).cancelQuiet.scan_keepsFlags
  obtain ⟨th, ev, hscan⟩ := State.scan_of_fault (s := (insertRepairs 0 s.sched.repairs s.failed.aborted).cancelQuiet)
    (by rw [heq]; rfl) (by
      rw [heq]
      rintro (hnil : q = [])
      simp [hnil] at hq)
  have hsqueeze := hflags Event.queueSqueeze.bit (hraised hfull)
  rw [State.enterFault_of_driving h]
  refine ⟨?_, ?_, hsqueeze, ?_⟩
  · rw [hscan]
    refine hqlen.trans ?_
    have : s.failed.aborted.sched.queue.length = s.sched.queue.length := rfl
    omega
  · rw [hscan]
    simpa using htake
  · rw [hscan, heq]
    exact ⟨fun i => look_replicate .., rfl, rfl, rfl, rfl, rfl, rfl⟩

/-! ### Power-good and the timers -/

theorem exec_pgoodRise_cases (s : State) :
    let high : State := { s with supply := { s.supply with pgood := true } }
    (s.supply.pgood = true → exec .pgoodRise s = .next s) ∧
    (s.supply.pgood = false →
      ((s.supply.state = .off ∨ s.supply.state = .fault) → exec .pgoodRise s = .next high) ∧
      (s.supply.state = .on → exec .pgoodRise s = .next { high with supply := { high.supply with filter := none } }) ∧
      (s.supply.state = .rising → s.supply.settings.filterTime ≠ 0 → exec .pgoodRise s =
        .next { high with supply := { high.supply with filter := some s.supply.settings.filterTime } }) ∧
      (s.supply.state = .rising → s.supply.settings.filterTime = 0 → exec .pgoodRise s = .next high.supplyOn)) := by
  show (_ → Host.Outcome.next s.pgoodRises = _) ∧ (_ → (_ → Host.Outcome.next s.pgoodRises = _) ∧
    (_ → Host.Outcome.next s.pgoodRises = _) ∧ (_ → _ → Host.Outcome.next s.pgoodRises = _) ∧
    (_ → _ → Host.Outcome.next s.pgoodRises = _))
  unfold State.pgoodRises
  refine ⟨fun h => by rw [if_pos h], fun h => ⟨fun hs => ?_, fun hs => ?_, fun hs hf => ?_, fun hs hf => ?_⟩⟩
  · rcases hs with hs | hs <;> simp [h, hs]
  · simp [h, hs]
  · simp [h, hs, hf]
  · simp [h, hs, hf]

theorem exec_pgoodFall_cases (s : State) :
    let low : State := { s with supply := { s.supply with pgood := false } }
    (s.supply.pgood = false → exec .pgoodFall s = .next s) ∧
    (s.supply.pgood = true →
      ((s.supply.state = .off ∨ s.supply.state = .fault) → exec .pgoodFall s = .next low) ∧
      (s.supply.state = .rising → exec .pgoodFall s = .next { low with supply := { low.supply with filter := none } }) ∧
      (s.supply.state = .on → s.supply.settings.filterTime ≠ 0 → exec .pgoodFall s =
        .next { low with supply := { low.supply with filter := some s.supply.settings.filterTime } }) ∧
      (s.supply.state = .on → s.supply.settings.filterTime = 0 → exec .pgoodFall s = .next low.enterFault)) := by
  show (_ → Host.Outcome.next s.pgoodFalls = _) ∧ (_ → (_ → Host.Outcome.next s.pgoodFalls = _) ∧
    (_ → Host.Outcome.next s.pgoodFalls = _) ∧ (_ → _ → Host.Outcome.next s.pgoodFalls = _) ∧
    (_ → _ → Host.Outcome.next s.pgoodFalls = _))
  unfold State.pgoodFalls
  refine ⟨fun h => by simp [h], fun h => ⟨fun hs => ?_, fun hs => ?_, fun hs hf => ?_, fun hs hf => ?_⟩⟩
  · rcases hs with hs | hs <;> simp [h, hs]
  · simp [h, hs]
  · simp [h, hs, hf]
  · simp [h, hs, hf]

theorem exec_supplyTimers (s : State) :
    ((s.supply.filter = none ∨ s.supply.state = .off ∨ s.supply.state = .fault) →
      exec .filterTimerExpiry s = .next s) ∧
    (s.supply.filter ≠ none → s.supply.state = .rising → exec .filterTimerExpiry s = .next s.supplyOn) ∧
    (s.supply.filter ≠ none → s.supply.state = .on → exec .filterTimerExpiry s = .next s.enterFault) ∧
    (s.supply.powerUp ≠ none → s.supply.state = .rising → exec .powerUpTimerExpiry s = .next s.enterFault) ∧
    ((s.supply.powerUp = none ∨ s.supply.state ≠ .rising) → exec .powerUpTimerExpiry s = .next s) ∧
    (s.supply.idle ≠ none → s.supply.state = .on → exec .idleTimerExpiry s = .next { s with
      supply := { s.supply with state := .off, filter := none, idle := none } }) ∧
    ((s.supply.idle = none ∨ s.supply.state ≠ .on) → exec .idleTimerExpiry s = .next s) := by
  have filter : exec .filterTimerExpiry s = .next s.filterExpires := rfl
  have powerUp : exec .powerUpTimerExpiry s = .next s.powerUpExpires := rfl
  have idle : exec .idleTimerExpiry s = .next s.idleExpires := rfl
  rw [filter, powerUp, idle]
  unfold State.filterExpires State.powerUpExpires State.idleExpires
  refine ⟨fun h => ?_, fun hf hs => ?_, fun hf hs => ?_, fun hp hs => ?_, fun h => ?_, fun hi hs => ?_, fun h => ?_⟩
  · rcases h with h | h | h <;> simp [h]
  · simp [hf, hs]
  · simp [hf, hs]
  · rw [if_pos ⟨Option.isSome_iff_ne_none.2 hp, hs⟩]
  · rw [if_neg fun hc => h.elim (Option.isSome_iff_ne_none.1 hc.1) fun h => h hc.2]
  · rw [if_pos ⟨Option.isSome_iff_ne_none.2 hi, hs⟩]
  · rw [if_neg fun hc => h.elim (Option.isSome_iff_ne_none.1 hc.1) fun h => h hc.2]

/-! ### Rows at which a command acts -/

/-- A command acts at its command byte, in an ACTIVE part or as one of those that SLEEP takes. -/
theorem acts_atCommand {s t : State} {c : Cmd} {act : State → State} (h : s.AtCommandByte c)
    (ha : s.begun.power.asleep = false ∨ c.takenAsleep = true) (hact : act s.begun = t) :
    (.next (s.atCommand c act) : Host.Outcome State Fault Refusal) = .next t.settleCut := by
  rw [State.atCommand_acts act h ha, hact]

/-- A command acts at its last parameter byte. -/
theorem acts_atLastParam {s t : State} {c : Cmd} {ps : List Byte} {act : List Byte → State → State}
    (h : s.AtLastParam c ps) (hact : act ps s.paramsTaken = t) :
    (.next (s.atLastParam c act) : Host.Outcome State Fault Refusal) = .next t.settleCut := by
  rw [State.atLastParam_acts act h, hact]

/-- A byte of the open stream is taken. -/
theorem acts_atStreamByte {s t : State} {b : Byte} {stream : Taking → Bool} {act : Byte → State → State}
    (h : s.AtParam b) (hs : stream s.link.taking = true) (hact : act b s.dropFront = t) :
    (.next (s.atStreamByte stream act) : Host.Outcome State Fault Refusal) = .next t.settleCut := by
  rw [State.atStreamByte_acts stream act h hs, hact]

/-- Settles O60: the rows of power-good and the three timers, a fault with its repairs, and SUPPLY CLEAR. -/
theorem supplyFollowsPowerGood : Obligations.SupplyFollowsPowerGood := by
  unfold Obligations.SupplyFollowsPowerGood
  refine ⟨fun s => ?_, fun s => ?_, fun s r before => ⟨State.insertRepair_of_room before r, fun a older younger hlen hq => ?_⟩,
    fun s hb ha => ⟨fun hs => ?_, fun hs => ?_⟩⟩
  · obtain ⟨hr1, hr2⟩ := exec_pgoodRise_cases s
    obtain ⟨hf1, hf2⟩ := exec_pgoodFall_cases s
    exact ⟨hr1, hr2, hf1, hf2, exec_supplyTimers s⟩
  · refine ⟨State.enterFault_of_idle, fun h hlen => ?_, fun h hlen hfull => State.enterFault_of_full h hlen hfull,
      fun h => ?_⟩
    · have hrepairs := insertRepairs_of_room s.sched.repairs [] s.sched.queue s.failed.aborted rfl
        hlen
      rw [State.enterFault_of_driving h]
      exact congrArg (fun u : State => u.cancelQuiet.scan) hrepairs
    · rw [State.enterFault_of_driving h, insertRepairs_eq_foldl]
      rfl
  · rw [State.insertRepair_of_full before r hlen, hq, squeezeTail_append]
    rfl
  · exact acts_atCommand hb (.inl ha) (if_pos hs)
  · exact acts_atCommand hb (.inl ha) (if_neg hs)

end Sys2Proof.Machine
end

section
/-! PROOF. Bytes clocked in outside reply positions, the places kept in the FIFO, the start-up, and the end of a command or
stream (R24, R37, R111, R147, R167, R169, R171 to R173, R176). -/

namespace Sys2Proof.Machine

/-! ### The code table -/

/-- Every command is found again by its code: the codes of the table are distinct. -/
theorem Cmd.ofCode_code (c : Cmd) : Cmd.ofCode c.code = some c := by
  cases c <;> decide

theorem Cmd.code_of_ofCode {b : Byte} {c : Cmd} (h : Cmd.ofCode b = some c) : b = c.code :=
  (eq_of_beq (List.find?_some (p := fun c : Cmd => c.code == b) (l := Cmd.all) h)).symm

theorem Cmd.ofCode_iff (b : Byte) (c : Cmd) : Cmd.ofCode b = some c ↔ b = c.code :=
  ⟨Cmd.code_of_ofCode, fun h => h ▸ Cmd.ofCode_code c⟩

theorem Cmd.ofCode_eq_none {b : Byte} (h : ∀ c : Cmd, b ≠ c.code) : Cmd.ofCode b = none :=
  Option.eq_none_iff_forall_ne_some.2 fun c hc => h c (Cmd.code_of_ofCode hc)

/-! ### A full FIFO -/

theorem Link.full_of_ge {l : Link} (h : 256 ≤ l.bytes) : l.full = true := decide_eq_true h

theorem Link.full_of_lt {l : Link} (h : l.bytes < 256) : l.full = false := decide_eq_false (Nat.not_le.2 h)

/-! ### Command bytes -/

theorem exec_commandByte {s : State} {b : Byte} (hs : s.power.startUp = false) (hb : b ≠ Cmd.reset.code) :
    exec (.byteClockedIn .command b) s = .next (s.clockCommand b) := by
  have h : s.clockByte .command b = s.clockCommand b := by simp [State.clockByte, hs, hb]
  exact congrArg _ h

theorem framingOf_of_none {b : Byte} (h : Cmd.ofCode b = none) : framingOf b = .spent := by
  simp [framingOf, h]

theorem replyOf_of_none {b : Byte} (h : Cmd.ofCode b = none) : replyOf b = .nothing := by
  simp [replyOf, h]

/-- The framing that a command byte opens, by the command's kind and its number of parameters. -/
theorem framingOf_of_some {b : Byte} {c : Cmd} (h : Cmd.ofCode b = some c) :
    (c.kind = .stream → framingOf b = .stream c) ∧
    (c.kind ≠ .stream → 0 < c.params → framingOf b = .fixed c c.params) ∧
    (c.kind = .read → c.params = 0 → framingOf b = .reply) ∧
    (c.kind = .write → c.params = 0 → framingOf b = .spent) := by
  unfold framingOf
  rw [h]
  cases hk : c.kind <;> simp +contextual [hk, Nat.ne_of_gt]

theorem replyOf_of_some {b : Byte} {c : Cmd} (h : Cmd.ofCode b = some c) :
    (c.kind = .read → replyOf b = .waiting) ∧ (c.kind ≠ .read → replyOf b = .nothing) := by
  unfold replyOf
  rw [h]
  exact ⟨fun hk => if_pos hk, fun hk => if_neg hk⟩

/-- Settles O3: the code table row by row, and a command byte at a FIFO with room and at a full one. -/
theorem commandByteIsFramed : Obligations.CommandByteIsFramed := by
  refine ⟨Cmd.ofCode_iff, by decide, fun s b hs hb => ⟨fun hroom => ?_, fun hfull => ?_⟩⟩
  · refine ⟨framingOf b, replyOf b, ?_, fun hn => ⟨framingOf_of_none hn, replyOf_of_none hn⟩, fun c hc => ?_⟩
    · rw [exec_commandByte hs hb]
      exact congrArg _ (if_neg (ne_true_of_eq_false (Link.full_of_lt hroom)))
    · obtain ⟨h1, h2, h3, h4⟩ := framingOf_of_some hc
      obtain ⟨h5, h6⟩ := replyOf_of_some hc
      exact ⟨h1, h2, h3, h4, h5, h6⟩
  · rw [exec_commandByte hs hb]
    exact congrArg _ (if_pos (Link.full_of_ge hfull))

/-! ### Parameter bytes -/

/-- Settles O4: by what is being framed, and whether the FIFO has room. -/
theorem parameterByteIsFramed : Obligations.ParameterByteIsFramed := by
  intro s b hs quiet
  rw [exec_parameterByte b hs]
  refine ⟨fun hf => ?_, fun hroom => ?_, fun hfull => ?_⟩
  · simp only [State.clockParameter, hf]
    rfl
  · have hlt := Link.full_of_lt hroom
    refine ⟨fun c left hf hl => ?_, fun c hf => ?_, fun c hf => ?_⟩
    · have hnot : ¬ left ≤ 1 := by omega
      simp only [State.clockParameter, hf, hlt, framingAfter, if_neg hnot]
      rfl
    · simp only [State.clockParameter, hf, hlt]
      rfl
    · rcases hf with hf | hf <;> (simp only [State.clockParameter, hf, hlt]; rfl)
  · have hge := Link.full_of_ge hfull
    refine ⟨fun c left hf => ?_, fun c hf => ?_, fun hf => ?_⟩ <;> simp only [State.clockParameter, hf, hge] <;> rfl

/-! ### The start-up -/

/-- Settles O6: each row of the link asks first whether the start-up is under way. -/
theorem startUpTakesNoBytes : Obligations.StartUpTakesNoBytes := by
  refine fun s => ⟨fun hs => ⟨fun kind b => exec_byteClockedIn_of_startUp kind b hs, ?_, ?_, ?_⟩, rfl⟩
  · exact congrArg _ (if_pos hs)
  · exact congrArg _ (if_pos hs)
  · simp [State.busy, hs]

/-! ### The end of a command or stream -/

/-- Settles O7: by what was being taken. -/
theorem endOfCommandOrStream : Obligations.EndOfCommandOrStream := by
  intro s next q
  have taken (t : Taking) (h : s.link.taking = t) : s.dropFront.link.taking = t := h
  unfold State.endCommand State.endTaking
  refine ⟨fun h => ?_, fun c got h => ?_, fun run h hr => ?_, fun r h hr => ?_, fun h hr => ?_, fun m band h => ?_,
    fun h hm => ?_, fun m h hm => ?_⟩
  · rcases h with h | h | h <;> rw [taken _ h] <;> rfl
  · rw [taken _ h]
  · rw [taken _ h]
    cases run with
    | face => exact absurd rfl hr
    | count => rfl
    | code => rfl
  · rw [taken _ h]
    simp only [State.endGlyphStream, State.dropFront_faces, hr, FaceStore.discardReceiving]
    rfl
  · rw [taken _ h]
    simp only [State.endGlyphStream, State.dropFront_faces, hr, q]
  · rw [taken _ h]
    rfl
  · rw [taken _ h]
    simp only [State.endPortWork, State.postWindow, State.dropFront_port, hm, q]
  · rw [taken _ h]
    simp only [State.endPortWork, State.postWindow, State.dropFront_port, hm, q]

/-- The end of a command does not touch the power state. -/
theorem State.endTaking_power (s : State) : s.endTaking.power = s.power := by
  unfold State.endTaking
  split
  · rfl
  · rfl
  · rfl
  · next run _ => cases run <;> rfl
  · unfold State.endGlyphStream
    split <;> rfl
  · rfl
  · exact (State.endPortWork_eq s).1.power

theorem State.begun_power (s : State) : s.begun.power = s.power := State.endTaking_power s.dropFront

/-! ### The places kept in the FIFO -/

theorem State.byteArrives_of_cut {s : State} {rest : List FifoItem} (h : s.link.fifo = .cut :: rest) :
    s.byteArrives = s.settleCut := by
  simp [State.byteArrives, h]

/-- Settles O8: each row of a kept place acts when that place is the FIFO's front item. -/
theorem keptPlacesEndTheCommand : Obligations.KeptPlacesEndTheCommand := by
  refine fun s => ⟨fun hs => ⟨_, rfl, ?_⟩, fun rest hf => ?_, fun code rest hf => ?_,
    fun rest hf => ⟨State.settleCut_of_cut hf, ?_⟩, State.settleCut_of_none⟩
  · rw [State.csEdge, if_neg (ne_true_of_eq_false hs)]
    exact ⟨by simp [Link.bytes, Link.keep, FifoItem.isByte], rfl⟩
  · have h : s.csArrives = s.endCommand .nothing := by simp [State.csArrives, hf]
    exact congrArg _ h
  · have h : s.droppedArrives = (s.endCommand .ignoring).refuse code .short := by simp [State.droppedArrives, hf]
    exact congrArg _ h
  · rw [← State.settleCut_of_cut hf, ← State.byteArrives_of_cut hf]
    rfl

/-! ### Arrivals at which no command acts -/

theorem State.unknownArrives_of_none {s : State} {b : Byte} {rest : List FifoItem}
    (hf : s.link.fifo = .byte .command b :: rest) (hb : Cmd.ofCode b = none) :
    s.unknownArrives = (s.begun.refuse b .unknown).settleCut := by
  simp only [State.unknownArrives, hf, hb]
  rfl

/-- The own row of a command without parameters in SLEEP refuses it. -/
theorem exec_row_asleep {s : State} {c : Cmd} (h : s.AtCommandByte c) (ha : s.begun.power.asleep = true)
    (hc : c.takenAsleep = false) (hp : c.params = 0) :
    exec c.row s = .next (s.begun.refuse c.code .asleep).settleCut := by
  have refused (act : State → State) :
      (.next (s.atCommand c act) : Host.Outcome State Fault Refusal) =
        .next (s.begun.refuse c.code .asleep).settleCut :=
    congrArg _ (State.atCommand_asleep act h ha hc)
  cases c <;> first | exact absurd hp (by decide) | exact absurd hc (by decide) | exact refused _

theorem State.unknownArrives_asleep {s : State} {c : Cmd} (h : s.AtCommandByte c) (ha : s.power.asleep = true)
    (hc : c.takenAsleep = false) (hp : c.params = 0) :
    s.unknownArrives = (s.begun.refuse c.code .asleep).settleCut := by
  obtain ⟨rest, hf⟩ := h
  simp only [State.unknownArrives, hf, Cmd.ofCode_code, ha, hp, hc, and_self, if_true]
  rfl

theorem State.byteArrives_of_command {s : State} {c : Cmd} (h : s.AtCommandByte c) (hp : 0 < c.params) :
    s.byteArrives = s.openCommand c := by
  obtain ⟨rest, hf⟩ := h
  simp only [State.byteArrives, hf, Cmd.ofCode_code, if_neg (Nat.ne_of_gt hp)]

/-- The command byte of a command with parameters opens it, in ACTIVE or if SLEEP takes it. -/
theorem State.openCommand_opens {s : State} {c : Cmd} (ha : s.begun.power.asleep = false ∨ c.takenAsleep = true) :
    s.openCommand c = (s.begun.setTaking (.params c [])).settleCut := by
  have h : ¬ (s.begun.power.asleep && !c.takenAsleep) = true := by
    rcases ha with ha | ha <;> simp [ha]
  exact congrArg State.settleCut (if_neg h)

theorem State.openCommand_asleep {s : State} {c : Cmd} (ha : s.begun.power.asleep = true)
    (hc : c.takenAsleep = false) : s.openCommand c = (s.begun.refuse c.code .asleep).settleCut := by
  have h : (s.begun.power.asleep && !c.takenAsleep) = true := by simp [ha, hc]
  exact congrArg State.settleCut (if_pos h)

/-- The five commands that SLEEP takes, by name. -/
theorem Cmd.takenAsleep_eq_false {c : Cmd} (h1 : c ≠ .wake) (h2 : c ≠ .statusRead) (h3 : c ≠ .eventAck)
    (h4 : c ≠ .idRead) (h5 : c ≠ .reset) : c.takenAsleep = false := by
  cases c <;> first | rfl | contradiction

/-- Settles O9: the front item is a byte of an unknown code, of a command that SLEEP refuses, of a command with
parameters, or a parameter byte that is kept or ignored. -/
theorem linkTakesOrRefusesBytes : Obligations.LinkTakesOrRefusesBytes := by
  refine ⟨fun s b rest hf hb => ?_, fun s c h ha h1 h2 h3 h4 h5 => ?_, fun s => ⟨fun c h hp ha => ?_,
    fun c got b h ht hl => ?_, fun b h ht => ?_⟩⟩
  · exact congrArg _ (State.unknownArrives_of_none hf (Cmd.ofCode_eq_none hb))
  · have hc := Cmd.takenAsleep_eq_false h1 h2 h3 h4 h5
    have hbegun : s.begun.power.asleep = true := by rw [State.begun_power]; exact ha
    refine ⟨fun hp => ⟨exec_row_asleep h hbegun hc hp, ?_⟩, fun hp => ?_⟩
    · exact congrArg _ (State.unknownArrives_asleep h ha hc hp)
    · exact congrArg _ ((State.byteArrives_of_command h hp).trans (State.openCommand_asleep hbegun hc))
  · refine congrArg _ ((State.byteArrives_of_command h hp).trans (State.openCommand_opens ?_))
    rw [State.begun_power]
    exact ha.imp_right fun hack => by rw [hack]; rfl
  · obtain ⟨rest, hf⟩ := h
    have harrive : s.byteArrives = (s.dropFront.setTaking (.params c (got ++ [b]))).settleCut := by
      simp only [State.byteArrives, hf, ht, if_pos hl]
    exact congrArg _ harrive
  · obtain ⟨rest, hf⟩ := h
    have harrive : s.byteArrives = s.dropFront.settleCut := by
      rcases ht with ht | ht <;> simp only [State.byteArrives, hf, ht]
    exact congrArg _ harrive

end Sys2Proof.Machine
end

section
/-! PROOF. The three resets (R169, R177), the event unit (R178 to R180), and SLEEP with its wake (R166 to R168). -/

namespace Sys2Proof.Machine

/-! ### Resets -/

/-- What a waveform table keeps through the RESET pin and the RESET command. -/
theorem PanelDrive.table_afterReset {d e : PanelDrive} (h : e.tables = mapAll Wave.afterReset d.tables) (m : Mode)
    (band : Nat) : e.table m band = (d.table m band).afterReset := by
  rw [PanelDrive.table, h]
  exact look_mapAll Wave.afterReset d.tables _ .absent

/-- Settles O10: power-on gives every block its initial content, whose tables hold one value at every place. -/
theorem powerOnClearsThePart : Obligations.PowerOnClearsThePart := by
  intro s
  refine ⟨s.powerOn, rfl, fun x y => ⟨rfl, rfl, rfl⟩, fun f => look_replicate .., rfl, rfl, rfl, rfl, rfl, rfl, rfl,
    fun slot => LineTable.initial_slot slot, rfl, rfl, rfl, rfl, rfl, rfl, rfl, rfl, rfl,
    fun i => Scheduler.initial_slot i, fun z => look_replicate .., fun z => look_replicate .., rfl, rfl, rfl, rfl, rfl,
    rfl, rfl, fun m band => look_replicate .., rfl, rfl, rfl, rfl, rfl, rfl, rfl, rfl, rfl, rfl, rfl, rfl, rfl, rfl, rfl,
    rfl, rfl, rfl, fun k => rfl, rfl, rfl, rfl, rfl, rfl, rfl, rfl, rfl, rfl⟩

/-- Settles O11: the pin's reset takes power-on's content for every block but the planes and the tables. -/
theorem resetPinKeepsPlanesAndTables : Obligations.ResetPinKeepsPlanesAndTables := by
  intro s
  refine ⟨s.pinReset, s.powerOn, rfl, rfl, rfl, fun m band _ => ?_, rfl, rfl, rfl, rfl, rfl, rfl, rfl, rfl, rfl, rfl,
    rfl, rfl, rfl, rfl⟩
  rw [PanelDrive.table_afterReset (d := s.drive) rfl]
  cases s.drive.table m band <;> rfl

/-- The reset's row and its command byte both act at once. -/
theorem exec_reset {s : State} (hs : s.power.startUp = false) :
    exec .reset s = .next (State.resetBlocks s { s with link := { s.link with fifo := [] } }.endTaking) ∧
    exec (.byteClockedIn .command 0x07) s =
      .next (State.resetBlocks s { s with link := { s.link with fifo := [] } }.endTaking) := by
  have hreset : s.resetCommand = State.resetBlocks s { s with link := { s.link with fifo := [] } }.endTaking :=
    if_neg (ne_true_of_eq_false hs)
  have hclock : s.clockByte .command 0x07 = s.resetCommand := by
    have h : s.clockByte .command 0x07 = if (0x07 : Byte) = Cmd.reset.code then s.resetCommand else s.clockCommand 0x07 :=
      if_neg (ne_true_of_eq_false hs)
    exact h.trans (if_pos rfl)
  exact ⟨congrArg _ hreset, congrArg _ (hclock.trans hreset)⟩

theorem AgeTimer.resume_eq_notRunning (a : AgeTimer) : a.resume = .notRunning ↔ a = .notRunning := by
  cases a <;> simp [AgeTimer.resume]

theorem AgeTimer.resume_ne_still (a : AgeTimer) : a.resume ≠ .still := by
  cases a <;> simp [AgeTimer.resume]

/-- Settles O12: each block takes its RESET-command state from the part as the ending of the command leaves it, and the
planes and the scheduler from the part as it was. -/
theorem resetCommandKeepsWhatItMust : Obligations.ResetCommandKeepsWhatItMust := by
  intro s hs
  obtain ⟨hrow, hbyte⟩ := exec_reset hs
  refine ⟨_, hrow, hbyte, _, rfl, rfl, rfl, rfl, fun f _ => FaceStore.face_afterResetCommand _ f, fun g => ?_, rfl, rfl,
    rfl, fun slot => LineTable.initial_slot slot, rfl, rfl, rfl, rfl, rfl, rfl, rfl, rfl, rfl,
    fun i => Scheduler.afterResetCommand_slot _ i, rfl, rfl, rfl, rfl, rfl, rfl, rfl, rfl, rfl, fun m band _ => ?_, rfl,
    rfl, rfl, rfl, rfl, rfl, AgeTimer.resume_eq_notRunning _, AgeTimer.resume_ne_still _, rfl, rfl, rfl, rfl, rfl, rfl⟩
  · simp only [State.resetBlocks, FaceStore.afterResetCommand, List.mem_filter, decide_eq_true_eq]
  · rw [PanelDrive.table_afterReset (d := State.drive (State.endTaking _)) rfl]
    cases PanelDrive.table _ m band <;> rfl

/-! ### The event unit -/

theorem eventBits_getLsbD {i : Nat} (hi : i < 16) : eventBits.getLsbD i = decide (i < 14) := by
  revert i
  decide

theorem maskOf_getLsbD (ps : List Byte) (at_ : Nat) {i : Nat} (hi : i < 16) :
    (maskOf ps at_).getLsbD i = (field ps at_ 2).testBit i := by
  simp only [maskOf, BitVec.getLsbD_ofNat, hi, decide_true, Bool.true_and]

/-- An interrupt line is driven while some flag and its mask bit are both 1. -/
theorem maskedFlags_iff (f m : BitVec 16) :
    decide (f &&& m ≠ 0) = true ↔ ∃ i, i < 16 ∧ f.getLsbD i = true ∧ m.getLsbD i = true := by
  rw [decide_eq_true_eq]
  constructor
  · intro h
    by_contra hnone
    refine h (BitVec.eq_of_getLsbD_eq fun i hi => ?_)
    have hzero : (0 : BitVec 16).getLsbD i = false := BitVec.getLsbD_zero
    rw [BitVec.getLsbD_and, hzero, ← Bool.not_eq_true, Bool.and_eq_true]
    exact fun hboth => hnone ⟨i, hi, hboth⟩
  · rintro ⟨i, -, hf, hm⟩ h
    have hbit : (f &&& m).getLsbD i = false := by rw [h]; exact BitVec.getLsbD_zero
    simp [hf, hm] at hbit

/-- Settles O16: the tables of bits and codes, one flag raised, and the masks bit by bit. -/
theorem eventsAreRaisedClearedAndRouted : Obligations.EventsAreRaisedClearedAndRouted := by
  refine ⟨rfl, rfl, fun s e i hi => ?_, fun _ _ _ => rfl, fun s ps h => ⟨_, acts_atLastParam h rfl, fun i hi => ?_⟩,
    fun s ps h => ⟨_, _, acts_atLastParam h rfl, fun i hi => ⟨?_, ?_⟩⟩,
    fun s => ⟨maskedFlags_iff _ _, maskedFlags_iff _ _⟩⟩
  · rw [State.raise_getLsbD e s hi]
    congr 1
    exact decide_eq_decide.2 eq_comm
  · have hflags : s.paramsTaken.events = s.events := rfl
    rw [hflags, BitVec.getLsbD_and, BitVec.getLsbD_not, BitVec.getLsbD_and, maskOf_getLsbD ps 0 hi,
      eventBits_getLsbD hi, Bool.and_comm (decide (i < 14)), decide_eq_true hi, Bool.true_and]
  · rw [BitVec.getLsbD_and, maskOf_getLsbD ps 0 hi, eventBits_getLsbD hi, Bool.and_comm]
  · rw [BitVec.getLsbD_and, maskOf_getLsbD ps 2 hi, eventBits_getLsbD hi, Bool.and_comm]

/-! ### SLEEP and WAKE -/

/-- What SLEEP requires, block by block. -/
theorem State.rests_iff (p : State) : p.Rests ↔
    (p.setter.job = none ∧ p.renderer.list = [] ∧ p.renderer.job = none ∧ p.marks.serving = none ∧
      p.marks.queue = [] ∧ (∀ v n, p.port.state ≠ .filling v n) ∧ p.sched.queue = [] ∧
      ∀ i, i < 8 → p.sched.slot i = none) := by
  have hdriving : p.sched.anyDriving = false ↔ ∀ i, i < 8 → p.sched.slot i = none := by
    rw [Scheduler.anyDriving_eq_false]
    refine ⟨fun h i _ => h i, fun h i => ?_⟩
    rcases Nat.lt_or_ge i 8 with hi | hi
    · exact h i hi
    · exact Scheduler.slot_of_ge _ hi
  have hfilling : p.port.isFilling = false ↔ ∀ v n, p.port.state ≠ .filling v n := by
    unfold ImagePort.isFilling
    cases p.port.state <;> simp
  refine ⟨fun ⟨h1, h2, h3, h4, h5, h6, h7, h8⟩ => ⟨h1, h2, h3, h4, h5, hfilling.1 h6, h7, hdriving.1 h8⟩,
    fun ⟨h1, h2, h3, h4, h5, h6, h7, h8⟩ => ⟨h1, h2, h3, h4, h5, hfilling.2 h6, h7, hdriving.2 h8⟩⟩

theorem AgeTimer.pause_eq (a : AgeTimer) : a.pause = if a = .running then .still else a := by
  cases a <;> rfl

theorem AgeTimer.resume_eq (a : AgeTimer) : a.resume = if a = .still then .running else a := by
  cases a <;> rfl

/-- Settles O17: SLEEP by whether the part rests, WAKE by whether it sleeps, and the wake's end. -/
theorem sleepAndWake : Obligations.SleepAndWake := by
  refine ⟨fun s h ha => ⟨fun hq => ?_, fun hq => ?_⟩, fun s h => ⟨fun ha => ⟨?_, ?_⟩, fun ha => ?_⟩, fun s hw => ?_⟩
  · refine acts_atCommand h (.inl ha) ?_
    rw [← AgeTimer.pause_eq]
    exact if_pos (s.begun.quietForSleep_iff.2 (s.begun.rests_iff.2 hq))
  · exact acts_atCommand h (.inl ha) (if_neg fun hc => hq (s.begun.rests_iff.1 (s.begun.quietForSleep_iff.1 hc)))
  · exact acts_atCommand h (.inr rfl) (if_pos ha)
  · exact Bool.or_true _
  · exact acts_atCommand h (.inr rfl) (if_neg (ne_true_of_eq_false ha))
  · rw [← AgeTimer.resume_eq]
    exact congrArg _ (if_pos hw)

end Sys2Proof.Machine
end

section
/-! PROOF. Template, text and composing: TEMPLATE SET (R13 to R15), TEXT LOAD (R34 to R36), COMPOSE with its end (R41 to R45,
R56), and PAGE CLEAR (R58). -/

namespace Sys2Proof.Machine

/-! ### The parts of these rows -/

theorem State.composing_iff (s : State) : s.composing = true ↔ s.setter.job ≠ none := Option.isSome_iff_ne_none

theorem State.not_composing {s : State} (h : s.setter.job = none) : ¬ s.composing = true :=
  fun hc => s.composing_iff.1 hc h

theorem LineTable.anySet_iff (t : LineTable) :
    t.anySet = true ↔ ∃ slot, slot < 210 ∧ (t.slot slot).record.isSet = true := by
  constructor
  · intro h
    obtain ⟨l, hl, hset⟩ := List.any_eq_true.1 h
    obtain ⟨i, hi, rfl⟩ := Vector.mem_iff_getElem.1 (Vector.mem_toList_iff.1 hl)
    exact ⟨i, hi, by rw [LineTable.slot, look_of_lt _ _ _ hi]; exact hset⟩
  · rintro ⟨slot, -, hset⟩
    by_contra h
    rw [LineTable.anySet_eq_false (by simpa using h) slot] at hset
    cases hset

theorem Renderer.hasWork_iff (r : Renderer) : r.hasWork = true ↔ r.list ≠ [] ∨ r.job ≠ none := by
  simp [Renderer.hasWork, Option.isSome_iff_ne_none]

/-- The ranges of R13, in the order of the statement. -/
theorem Template.legal_iff (t : Template) : t.legal = true ↔
    ((t.headHeight = 0 ∨ (t.pitch ≤ t.headHeight ∧ t.headHeight ≤ 1664)) ∧
      (t.pitch ≤ t.bodyHeight ∧ t.bodyHeight ≤ 1664) ∧
      (t.footHeight = 0 ∨ (t.pitch ≤ t.footHeight ∧ t.footHeight ≤ 1664)) ∧
      t.left ≤ 1184 ∧ 64 ≤ t.measure ∧ t.measure ≤ 1248 ∧ t.left + t.measure ≤ 1248 ∧ 8 ≤ t.pitch ∧ t.pitch ≤ 255 ∧
      1 ≤ t.baseline ∧ t.baseline ≤ t.pitch - 1 ∧ t.indent ≤ 255 ∧ t.indent < t.measure ∧ t.stretch ≤ 255 ∧
      t.noteFace ≤ 15 ∧ t.headHeight + t.bodyHeight + t.footHeight = 1664) := by
  simp only [Template.legal, Bool.and_eq_true, Bool.or_eq_true, decide_eq_true_eq, beq_iff_eq]
  tauto

theorem LineTable.forget_slot (t : LineTable) (slot : Nat) :
    t.forget.slot slot = { t.slot slot with signature := none, length := none } :=
  look_mapAll (fun l : LineSlot => ({ l with signature := none, length := none } : LineSlot)) t slot .blank

/-- Settles O20: the checks in their order. -/
theorem templateSetChecksInOrder : Obligations.TemplateSetChecksInOrder := by
  intro s ps h p T legal set work
  have hset : p.lines.anySet = true ↔ set := LineTable.anySet_iff _
  have hwork : p.renderer.hasWork = true ↔ work := Renderer.hasWork_iff _
  have hlegal : (templateOf ps).legal = true ↔ legal := Template.legal_iff T
  refine ⟨fun hj => ?_, fun hj hs => ?_, fun hj hs hw => ?_, fun hj hs hw hl => ?_, fun hj hs hw hl =>
    ⟨p.lines.forget, ?_, LineTable.forget_slot _⟩⟩
  · exact acts_atLastParam h (if_pos (p.composing_iff.2 hj))
  · exact acts_atLastParam h ((if_neg (State.not_composing hj)).trans (if_pos (hset.2 hs)))
  · exact acts_atLastParam h ((if_neg (State.not_composing hj)).trans
      ((if_neg (mt hset.1 hs)).trans (if_pos (hwork.2 hw))))
  · exact acts_atLastParam h ((if_neg (State.not_composing hj)).trans
      ((if_neg (mt hset.1 hs)).trans ((if_neg (mt hwork.1 hw)).trans (if_neg (mt hlegal.1 hl)))))
  · exact acts_atLastParam h ((if_neg (State.not_composing hj)).trans
      ((if_neg (mt hset.1 hs)).trans ((if_neg (mt hwork.1 hw)).trans (if_pos (hlegal.2 hl)))))

/-! ### TEXT LOAD -/

/-- A byte of a TEXT LOAD stream that is open at `run`. -/
theorem acts_textByte {s t : State} {b : Byte} {run : TextRun} (h : s.AtParam b) (ht : s.link.taking = .text run)
    (hact : s.dropFront.textByte b = t) : exec .textLoadByte s = .next t.settleCut :=
  acts_atStreamByte h (by rw [ht]; rfl) hact

theorem State.textByte_face {q : State} (b : Byte) (h : q.link.taking = .text .face) :
    q.textByte b = if 15 < b.toNat then q.textFault else q.setTaking (.text (.count b.toNat)) := by
  simp only [State.textByte, h]

theorem State.textByte_count {q : State} (b : Byte) {face : Nat} (h : q.link.taking = .text (.count face)) :
    q.textByte b = if b.toNat = 0 then q.textFault else q.setTaking (.text (.code face b.toNat [])) := by
  simp only [State.textByte, h]

theorem State.textByte_code {q : State} (b : Byte) {face left : Nat} {got : List Byte}
    (h : q.link.taking = .text (.code face left got)) :
    q.textByte b = if got.length < 2 then q.setTaking (.text (.code face left (got ++ [b])))
      else q.textCode face left (fromBytes (got ++ [b])) := by
  simp only [State.textByte, h]

/-- Settles O21: the header's two checks, and a run byte by where its run stands. -/
theorem textLoadFillsTheBuffer : Obligations.TextLoadFillsTheBuffer := by
  refine ⟨fun s ps h => ⟨fun hj => ?_, fun hj hb => ?_, fun hj hb => ?_⟩, fun s b h => ⟨fun ht => ?_, fun face ht => ?_,
    fun face left got ht hg => ?_, fun face left hi mid ht => ?_⟩⟩
  · exact acts_atLastParam h (if_pos (State.composing_iff _ |>.2 hj))
  · exact acts_atLastParam h ((if_neg (State.not_composing hj)).trans (if_pos hb))
  · exact acts_atLastParam h ((if_neg (State.not_composing hj)).trans (if_neg (Nat.not_lt.2 hb)))
  · have hbyte := State.textByte_face (q := s.dropFront) b ht
    split
    · next hle => exact acts_textByte h ht (hbyte.trans (if_neg (Nat.not_lt.2 hle)))
    · next hgt => exact acts_textByte h ht (hbyte.trans (if_pos (Nat.lt_of_not_le hgt)))
  · have hbyte := State.textByte_count (q := s.dropFront) b ht
    split
    · next hz => exact acts_textByte h ht (hbyte.trans (if_pos (by rw [hz]; rfl)))
    · next hz => exact acts_textByte h ht (hbyte.trans (if_neg fun hc => hz (BitVec.eq_of_toNat_eq hc)))
  · exact acts_textByte h ht ((State.textByte_code (q := s.dropFront) b ht).trans (if_pos hg))
  · intro code
    have hcode : fromBytes ([hi, mid] ++ [b]) = code := by
      simp only [fromBytes, List.cons_append, List.nil_append, List.foldl_cons, List.foldl_nil, code]
      omega
    have hbyte : s.dropFront.textByte b = s.dropFront.textCode face left code := by
      rw [State.textByte_code (q := s.dropFront) b ht, hcode]
      exact if_neg (Nat.lt_irrefl 2)
    refine ⟨fun hbig => ?_, fun hle hfull => ?_, fun hle hroom => ?_⟩
    · exact acts_textByte h ht (hbyte.trans (if_pos hbig))
    · exact acts_textByte h ht (hbyte.trans ((if_neg (Nat.not_lt.2 hle)).trans (if_pos hfull)))
    · exact acts_textByte h ht (hbyte.trans ((if_neg (Nat.not_lt.2 hle)).trans (if_neg (Nat.not_le.2 hroom))))

/-! ### COMPOSE -/

theorem areaOf_eq (n : Nat) : areaOf n =
    if 2 < n then none else some (if n = 0 then .head else if n = 1 then .body else .foot) := by
  unfold areaOf
  split_ifs <;> first | rfl | omega

theorem alignOf_eq (n : Nat) : alignOf n =
    if 2 < n then none else some (if n = 0 then .left else if n = 1 then .center else .justify) := by
  unfold alignOf
  split_ifs <;> first | rfl | omega

theorem flagOf_eq (n : Nat) : flagOf n = if 1 < n then none else some (decide (n = 1)) := by
  unfold flagOf
  split_ifs with h0 h1 h2 h3
  · omega
  · rw [h0]; rfl
  · omega
  · rw [h2]; rfl
  · rfl
  · omega

/-- The operands of COMPOSE are out of their ranges (R41). -/
def ComposeBad (textLength area start align startsPara endsPara : Nat) : Prop :=
  2 < area ∨ textLength < start ∨ 2 < align ∨ 1 < startsPara ∨ 1 < endsPara ∨ (align = 2 ∧ area ≠ 1)

/-- The operands of COMPOSE are read exactly when each is in its range. -/
theorem composeOf_eq (n : Nat) (ps : List Byte) :
    (ComposeBad n (field ps 0 1) (field ps 1 2) (field ps 3 1) (field ps 4 1) (field ps 5 1) → composeOf n ps = none) ∧
    (¬ ComposeBad n (field ps 0 1) (field ps 1 2) (field ps 3 1) (field ps 4 1) (field ps 5 1) →
      composeOf n ps = some ⟨if field ps 0 1 = 0 then .head else if field ps 0 1 = 1 then .body else .foot, field ps 1 2,
        if field ps 3 1 = 0 then .left else if field ps 3 1 = 1 then .center else .justify,
        decide (field ps 4 1 = 1), decide (field ps 5 1 = 1)⟩) := by
  unfold composeOf ComposeBad
  rw [areaOf_eq, alignOf_eq, flagOf_eq, flagOf_eq]
  generalize field ps 0 1 = area
  generalize field ps 1 2 = start
  generalize field ps 3 1 = align
  generalize field ps 4 1 = startsPara
  generalize field ps 5 1 = endsPara
  by_cases h1 : 2 < area
  · simp [h1]
  by_cases h2 : 2 < align
  · simp [h1, h2]
  by_cases h3 : 1 < startsPara
  · simp [h1, h2, h3]
  by_cases h4 : 1 < endsPara
  · simp [h1, h2, h3, h4]
  have hjustify : (if align = 0 then Align.left else if align = 1 then Align.center else Align.justify) = .justify ↔
      align = 2 := by
    split_ifs <;> simp <;> omega
  have hbody : (if area = 0 then Area.head else if area = 1 then Area.body else Area.foot) = .body ↔ area = 1 := by
    split_ifs <;> simp <;> omega
  simp only [h1, h2, h3, h4, if_false, false_or, Option.bind_eq_bind, Option.bind_some, hjustify, hbody]
  refine ⟨fun h => if_neg fun hc => ?_, fun h => if_pos ⟨?_, fun ha => ?_⟩⟩
  · rcases h with h | ⟨ha, hb⟩
    · omega
    · exact hb (hc.2 ha)
  · omega
  · by_contra hb
    exact h (.inr ⟨ha, hb⟩)

theorem State.facesReady_iff (p : State) (start : Nat) :
    p.facesReady start = true ↔ ∀ c ∈ p.setter.text.drop start, (p.faces.face c.face).state = .ready := by
  simp only [State.facesReady, List.all_eq_true, beq_iff_eq]

theorem State.compose_of_none {p : State} {ps : List Byte} (hj : p.setter.job = none)
    (h : composeOf p.setter.text.length ps = none) : p.compose ps = p.refuse Cmd.compose.code .badParam := by
  rw [State.compose, if_neg (State.not_composing hj), h]

theorem State.compose_of_some {p : State} {ps : List Byte} {o : ComposeOperands} (hj : p.setter.job = none)
    (h : composeOf p.setter.text.length ps = some o) :
    p.compose ps = if p.facesReady o.start then
        p.onSetter fun st => { st with
          job := some ⟨o.area, o.align, o.startsPara, o.endsPara, o.start, o.start, [], o.startsPara⟩ }
      else p.refuse Cmd.compose.code .wrongState := by
  rw [State.compose, if_neg (State.not_composing hj), h]

/-- Settles O22: the checks of COMPOSE in their order, and COMPOSE CANCEL by whether a compose is in flight. -/
theorem composeStartsAndIsCancelled : Obligations.ComposeStartsAndIsCancelled := by
  refine ⟨fun s ps h => ?_, fun s h ha => ⟨fun hj => ?_, fun j hj => ?_⟩⟩
  · intro p area start align bad ready
    obtain ⟨hnone, hsome⟩ := composeOf_eq p.setter.text.length ps
    have hready : p.facesReady start = true ↔ ready := p.facesReady_iff start
    refine ⟨fun hj => ?_, fun hj hb => ?_, fun hj hb hr => ?_, fun hj hb hr => ?_⟩
    · exact acts_atLastParam h (if_pos (p.composing_iff.2 hj))
    · exact acts_atLastParam h (State.compose_of_none hj (hnone hb))
    · exact acts_atLastParam h ((State.compose_of_some hj (hsome hb)).trans (if_neg (mt hready.1 hr)))
    · exact acts_atLastParam h ((State.compose_of_some hj (hsome hb)).trans (if_pos (hready.2 hr)))
  · exact acts_atCommand h (.inl ha) (by simp only [State.composeCancel, hj])
  · refine acts_atCommand h (.inl ha) ?_
    simp only [State.composeCancel, hj]
    rfl

/-! ### Slots listed with cause PAGE -/

theorem page_mem_listSlot_self (slot : Nat) (list : List (Nat × Cause)) :
    (slot, Cause.page) ∈ listSlot slot .page list := by
  have hjoin : ∀ c : Cause, c.join .page = .page := fun c => by cases c <;> rfl
  induction list with
  | nil => simp [listSlot]
  | cons e rest ih =>
    unfold listSlot
    split
    · simp
    · split
      · next h => simp [hjoin, h]
      · exact List.mem_cons_of_mem _ ih

/-- Listing a slot leaves the entries of every other slot. -/
theorem mem_listSlot_of_ne {slot k : Nat} (h : k ≠ slot) (cause c : Cause) (list : List (Nat × Cause)) :
    (k, c) ∈ listSlot slot cause list ↔ (k, c) ∈ list := by
  induction list with
  | nil => simp [listSlot, h]
  | cons e rest ih =>
    unfold listSlot
    split
    · simp [h]
    · split
      · next he =>
        have hk : k ≠ e.1 := he ▸ h
        have hne : ∀ d : Cause, (k, c) ≠ (e.1, d) := fun d heq => hk (congrArg Prod.fst heq)
        simp [List.mem_cons, hne]
      · rw [List.mem_cons, List.mem_cons, ih]

theorem mem_listSlots_of_not {test : Nat → Bool} {k : Nat} (h : test k = false) (cause c : Cause)
    (list : List (Nat × Cause)) : (k, c) ∈ listSlots test cause list ↔ (k, c) ∈ list := by
  unfold listSlots
  generalize List.range 210 = slots
  induction slots generalizing list with
  | nil => rfl
  | cons a rest ih =>
    rw [List.foldl_cons, ih]
    split
    · next ha => exact mem_listSlot_of_ne (fun hk => by rw [hk, ha] at h; cases h) cause c list
    · rfl

theorem page_mem_listSlots {test : Nat → Bool} {k : Nat} (hk : k < 210) (h : test k = true)
    (list : List (Nat × Cause)) : (k, Cause.page) ∈ listSlots test .page list := by
  have keeps : ∀ (slots : List Nat) (l : List (Nat × Cause)), ((k, Cause.page) ∈ l ∨ k ∈ slots) →
      (k, Cause.page) ∈ slots.foldl (fun l slot => if test slot then listSlot slot .page l else l) l := by
    intro slots
    induction slots with
    | nil => exact fun l hl => hl.resolve_right List.not_mem_nil
    | cons a rest ih =>
      intro l hl
      rw [List.foldl_cons]
      refine ih _ ?_
      by_cases ha : k = a
      · rw [← ha, if_pos h]
        exact .inl (page_mem_listSlot_self k l)
      · refine (hl.imp_right fun hm => (List.mem_cons.1 hm).resolve_left ha).imp_left fun hm => ?_
        split
        · exact (mem_listSlot_of_ne ha _ _ l).2 hm
        · exact hm
  exact keeps _ list (.inr (List.mem_range.2 hk))

theorem rangeOnPage_iff (lines : LineTable) (a b : Nat) : rangeOnPage lines a b = true ↔ ∃ slot, slot < 210 ∧
    (lines.slot slot).record.isSet = true ∧ (lines.slot slot).record.docStart < b ∧
      a < (lines.slot slot).record.docEnd := by
  have meets (l : LineSlot) :
      l.meets a b = true ↔ l.record.isSet = true ∧ l.record.docStart < b ∧ a < l.record.docEnd := by
    simp [LineSlot.meets, rangesMeet]
  constructor
  · intro h
    obtain ⟨l, hl, hm⟩ := List.any_eq_true.1 h
    obtain ⟨i, hi, rfl⟩ := Vector.mem_iff_getElem.1 (Vector.mem_toList_iff.1 hl)
    refine ⟨i, hi, ?_⟩
    rw [LineTable.slot, look_of_lt _ _ _ hi]
    exact (meets _).1 hm
  · rintro ⟨slot, hlt, hm⟩
    rw [LineTable.slot, look_of_lt _ _ _ hlt] at hm
    exact List.any_eq_true.2 ⟨_, Vector.mem_toList_iff.2 (Vector.getElem_mem hlt), (meets _).2 hm⟩

/-! ### Compose done -/

theorem Area.holdsSlot_iff (a : Area) (slot : Nat) :
    a.holdsSlot slot = true ↔ a.firstSlot ≤ slot ∧ slot < a.firstSlot + a.slotCount := by
  simp [Area.holdsSlot]

/-- The swap of a draft leaves what was rendered, also past the table's end. -/
theorem swapDraft_rendered (a : Area) (draft : List LineRecord) (lines : LineTable) (slot : Nat) :
    ((swapDraft a draft lines).slot slot).signature = (lines.slot slot).signature ∧
      ((swapDraft a draft lines).slot slot).length = (lines.slot slot).length := by
  rcases Nat.lt_or_ge slot 210 with hlt | hge
  · rw [swapDraft_slot a draft lines hlt]
    split <;> exact ⟨rfl, rfl⟩
  · rw [LineTable.slot, LineTable.slot, look_of_ge _ _ _ hge, look_of_ge _ _ _ hge]
    exact ⟨rfl, rfl⟩

/-- The slots of an area that have a line box. -/
def ComposeJob.boxed (j : ComposeJob) (t : Template) (slot : Nat) : Bool :=
  j.area.holdsSlot slot && (t.boxTop slot).isSome

/-- The part at compose done: the draft swapped in, its slots listed and the result set. -/
def State.swapped (j : ComposeJob) (s : State) : State :=
  { s with
    lines := swapDraft j.area (j.finish s.faces s.setter).lines s.lines
    renderer := { s.renderer with
      list := listSlots (j.boxed s.setter.template) .page s.renderer.list }
    setter := { s.setter with job := none, result := j.result (j.finish s.faces s.setter) } }

theorem State.composeEnds_of_job {s : State} {j : ComposeJob} (h : s.setter.job = some j) :
    s.composeEnds = (s.swapped j).recomputeOnPage.raise .composeDone := by
  simp only [State.composeEnds, h]
  rfl

/-- Settles O23: the line table slot by slot, the list by the slots that the area's boxes name, the rest as it stands. -/
theorem composeDoneSwapsTheDraft : Obligations.ComposeDoneSwapsTheDraft := by
  intro s j hj
  have hends : exec .composeDone s = .next ((s.swapped j).recomputeOnPage.raise .composeDone) :=
    congrArg Host.Outcome.next (State.composeEnds_of_job hj)
  refine ⟨_, hends, ?_⟩
  intro d inArea
  have hin (slot : Nat) : j.area.holdsSlot slot = true ↔ inArea slot := j.area.holdsSlot_iff slot
  have hboxed (slot : Nat) : j.boxed s.setter.template slot = true ↔
      inArea slot ∧ (s.setter.template.boxTop slot).isSome = true := by
    rw [ComposeJob.boxed, Bool.and_eq_true, hin]
  have hbox {slot : Nat} (h : (s.setter.template.boxTop slot).isSome = true) : slot < 210 := by
    obtain ⟨top, htop⟩ := Option.isSome_iff_exists.1 h
    exact Template.boxTop_lt htop
  refine ⟨fun slot hlt h => ?_, fun slot hlt h => ?_, fun slot => swapDraft_rendered .., fun slot h hb => ?_,
    fun slot => ?_, rfl, rfl, fun m => rangeOnPage_iff .., rfl, rfl, rfl, rfl, rfl, rfl, rfl, rfl, rfl, rfl⟩
  · have hslot := swapDraft_slot j.area d.lines s.lines hlt
    rw [if_pos ((hin slot).2 h)] at hslot
    exact congrArg LineSlot.record hslot
  · have hslot := swapDraft_slot j.area d.lines s.lines hlt
    rw [if_neg (mt (hin slot).1 h)] at hslot
    exact congrArg LineSlot.record hslot
  · have hmem : (slot, Cause.page) ∈ listSlots (j.boxed s.setter.template) .page s.renderer.list :=
      page_mem_listSlots (hbox hb) ((hboxed slot).2 ⟨h, hb⟩) s.renderer.list
    exact hmem
  · refine (lists_listSlots (j.boxed s.setter.template) .page s.renderer.list slot).trans (or_congr_right ?_)
    rw [hboxed]
    exact ⟨fun h => h.2, fun h => ⟨hbox h.2, h⟩⟩

/-! ### PAGE CLEAR -/

/-- The slots that the areas of PAGE CLEAR name. -/
theorem clears_iff {ps : List Byte} {areas : List Area} (h : clearAreasOf ps = some areas) (t : LineTable) (slot : Nat) :
    t.clears areas slot = true ↔ ((field ps 0 1 = 3 ∧ slot < 210) ∨ (field ps 0 1 = 0 ∧ slot = 0) ∨
      (field ps 0 1 = 1 ∧ 1 ≤ slot ∧ slot ≤ 208) ∨ (field ps 0 1 = 2 ∧ slot = 209)) ∧
        (t.slot slot).record.isSet = true := by
  have named : (areas.any fun a => a.holdsSlot slot) = true ↔ (field ps 0 1 = 3 ∧ slot < 210) ∨
      (field ps 0 1 = 0 ∧ slot = 0) ∨ (field ps 0 1 = 1 ∧ 1 ≤ slot ∧ slot ≤ 208) ∨
      (field ps 0 1 = 2 ∧ slot = 209) := by
    unfold clearAreasOf at h
    rw [areaOf_eq] at h
    split_ifs at h with h3 h2 h0 h1 <;> simp only [Option.map_none, Option.map_some, reduceCtorEq, Option.some.injEq] at h
      <;> simp only [← h, List.any_cons, List.any_nil, Bool.or_false, Bool.or_eq_true, Area.holdsSlot_iff, Area.firstSlot,
        Area.slotCount] <;> omega
  rw [LineTable.clears, Bool.and_eq_true, named]
  exact and_comm

theorem clearAreasOf_eq_none_iff (ps : List Byte) : clearAreasOf ps = none ↔ 3 < field ps 0 1 := by
  unfold clearAreasOf
  rw [areaOf_eq]
  split_ifs <;> simp <;> omega

/-- The line table and the list after the SET slots of some areas are cleared. -/
def State.areasCleared (areas : List Area) (p : State) : State :=
  { p with
    lines := mapPlaces (fun slot (l : LineSlot) => if p.lines.clears areas slot then { l with record := .blank } else l) p.lines
    renderer := { p.renderer with list := listSlots (p.lines.clears areas) .page p.renderer.list } }

theorem State.areasCleared_slot (areas : List Area) (p : State) (slot : Nat) :
    (p.areasCleared areas).lines.slot slot =
      if p.lines.clears areas slot then { p.lines.slot slot with record := .blank } else p.lines.slot slot := by
  rcases Nat.lt_or_ge slot 210 with hlt | hge
  · exact look_mapPlaces (fun slot (l : LineSlot) => if p.lines.clears areas slot = true then
      ({ l with record := .blank } : LineSlot) else l) p.lines slot .blank _ hlt
  · have hblank (t : LineTable) : t.slot slot = .blank := look_of_ge _ _ _ hge
    rw [hblank, hblank]
    split <;> rfl

theorem State.pageClear_of_some {p : State} {ps : List Byte} {areas : List Area} (hj : p.setter.job = none)
    (h : clearAreasOf ps = some areas) : p.pageClear ps =
      if (List.range 210).any (p.lines.clears areas) then (p.areasCleared areas).recomputeOnPage else p := by
  rw [State.pageClear, if_neg (State.not_composing hj), h]
  rfl

/-- Settles O24: the checks in their order, and the slots that are cleared one by one. -/
theorem pageClearEmptiesItsAreas : Obligations.PageClearEmptiesItsAreas := by
  intro s ps h p code named cleared
  refine ⟨fun hj => acts_atLastParam h (if_pos (p.composing_iff.2 hj)), fun hj hcode => ?_, fun hj hcode hnone => ?_,
    fun hj hcode hsome => ?_⟩
  · refine acts_atLastParam h ((if_neg (State.not_composing hj)).trans ?_)
    rw [(clearAreasOf_eq_none_iff ps).2 hcode]
    rfl
  all_goals
    obtain ⟨areas, hareas⟩ : ∃ areas, clearAreasOf ps = some areas :=
      Option.ne_none_iff_exists'.1 fun hn => Nat.not_lt.2 hcode ((clearAreasOf_eq_none_iff ps).1 hn)
    have hclears (slot : Nat) : p.lines.clears areas slot = true ↔ cleared slot := clears_iff hareas p.lines slot
  · refine acts_atLastParam h ((State.pageClear_of_some hj hareas).trans (if_neg fun hany => ?_))
    obtain ⟨slot, -, hslot⟩ := List.any_eq_true.1 hany
    exact hnone slot ((hclears slot).1 hslot)
  · obtain ⟨slot, hslot⟩ := hsome
    have hlt : slot < 210 := LineTable.isSet_lt hslot.2
    refine ⟨_, _, acts_atLastParam h ((State.pageClear_of_some hj hareas).trans
      (if_pos (List.any_eq_true.2 ⟨slot, List.mem_range.2 hlt, (hclears slot).2 hslot⟩))), fun k hk => ⟨?_, ?_⟩,
      fun k hk => ⟨?_, fun cause => ?_⟩⟩
    · exact (p.areasCleared_slot areas k).trans (if_pos ((hclears k).2 hk))
    · exact page_mem_listSlots (LineTable.isSet_lt hk.2) ((hclears k).2 hk) _
    · exact (p.areasCleared_slot areas k).trans (if_neg (mt (hclears k).1 hk))
    · exact mem_listSlots_of_not (Bool.not_eq_true _ ▸ mt (hclears k).1 hk) _ _ _

end Sys2Proof.Machine
end

section
/-! PROOF. Five reads (R28, R46, R57, R79, R114), FACE SEAL and FACE RETIRE (R25 to R27), and GLYPH PUT (R18, R21 to R23). -/

namespace Sys2Proof.Machine

/-! ### The replies of the reads -/

/-- An accepted read changes nothing but its reply. -/
theorem State.answer_eq (data : List Byte) (p : State) :
    p.answer data = { p with link := { p.link with reply := p.replyIfOpen (.data (0xA5 :: data)) } } :=
  State.giveReply_eq _ p

theorem State.refuseRead_eq (cmd : Cmd) (reason : Reason) (p : State) : p.refuseRead cmd reason =
    { p.refuse cmd.code reason with
      link := { (p.refuse cmd.code reason).link with
        reply := (p.refuse cmd.code reason).replyIfOpen (.data []) } } :=
  State.giveReply_eq _ _

theorem State.answerRead_eq (p : State) : p.answerRead = { p with
    link := { p.link with reply := p.replyIfOpen (.data (0xA5 :: p.marks.answer.bytes)) }
    marks := { p.marks with answer := { p.marks.answer with read := true } } } := by
  unfold State.answerRead
  rw [State.answer_eq]

/-- The slot that LINE READ names, if it names one. -/
theorem lineSlotOf_eq (ps : List Byte) :
    (2 < field ps 0 1 ∨ (field ps 0 1 = 1 ∧ 207 < field ps 1 1) ∨ (field ps 0 1 ≠ 1 ∧ field ps 1 1 ≠ 0) →
      lineSlotOf ps = none) ∧
    (¬ (2 < field ps 0 1 ∨ (field ps 0 1 = 1 ∧ 207 < field ps 1 1) ∨ (field ps 0 1 ≠ 1 ∧ field ps 1 1 ≠ 0)) →
      lineSlotOf ps =
        some (if field ps 0 1 = 0 then 0 else if field ps 0 1 = 1 then 1 + field ps 1 1 else 209)) := by
  unfold lineSlotOf
  rw [areaOf_eq]
  generalize field ps 0 1 = area
  generalize field ps 1 1 = k
  by_cases h2 : 2 < area
  · simp [h2]
  by_cases h0 : area = 0
  · simp +contextual [h0, Area.firstSlot, Area.slotCount]
  by_cases h1 : area = 1
  · refine ⟨fun h => ?_, fun h => ?_⟩
    · have hk : ¬ k < 208 := by omega
      simp [h1, Area.slotCount, hk]
    · have hk : k < 208 := by omega
      simp [h1, Area.firstSlot, Area.slotCount, hk]
  · simp +contextual [h0, h1, h2, Area.firstSlot, Area.slotCount]

theorem faceOf_of_gt {ps : List Byte} (h : 15 < field ps 0 1) : faceOf ps = none := if_neg (Nat.not_le.2 h)

theorem faceOf_of_le {ps : List Byte} (h : field ps 0 1 ≤ 15) : faceOf ps = some (field ps 0 1) := if_pos h

theorem planeOf_of_gt {ps : List Byte} (h : 1 < field ps 0 1) : planeOf ps = none := by
  unfold planeOf
  rw [if_neg (by omega), if_neg (by omega)]

theorem planeOf_of_le {ps : List Byte} (h : field ps 0 1 ≤ 1) :
    planeOf ps = some (if field ps 0 1 = 0 then .target else .current) := by
  unfold planeOf
  split_ifs
  · rfl
  · rfl
  · omega

/-- Settles O29: each read's reply, and its refusals in their order. -/
theorem readsAnswerOrRefuse : Obligations.ReadsAnswerOrRefuse := by
  refine ⟨fun s h ha => ?_, fun s h ha => acts_atCommand h (.inl ha) (State.answerRead_eq _), fun s ps =>
    ⟨fun h => ⟨fun hbad => ?_, fun hok => ?_⟩, fun h => ⟨fun hgt => ?_, fun hle => ?_⟩,
      fun h => ⟨fun hfill => ?_, fun hfill hgt => ?_, fun hfill hle => ?_⟩⟩⟩
  · refine acts_atCommand h (.inl ha) ((State.answer_eq _ _).trans ?_)
    simp only [Setter.resultRecord]
    cases s.begun.setter.result.status <;> cases s.begun.setter.result.area <;> rfl
  · refine acts_atLastParam h ?_
    rw [State.lineRead, (lineSlotOf_eq ps).1 hbad]
    exact State.refuseRead_eq ..
  · refine acts_atLastParam h ?_
    rw [State.lineRead, (lineSlotOf_eq ps).2 hok]
    exact State.answer_eq ..
  · refine acts_atLastParam h ?_
    rw [State.faceInfo, faceOf_of_gt hgt]
    exact State.refuseRead_eq ..
  · refine acts_atLastParam h ?_
    rw [State.faceInfo, faceOf_of_le hle]
    refine (State.answer_eq _ _).trans ?_
    simp only [FaceStore.infoRecord]
    cases (s.paramsTaken.faces.face (field ps 0 1)).state <;> rfl
  · refine acts_atLastParam h ((if_pos ((ImagePort.isFilling_iff _).2 hfill)).trans ?_)
    exact State.refuseRead_eq ..
  · refine acts_atLastParam h ((if_neg (mt (ImagePort.isFilling_iff _).1 hfill)).trans ?_)
    rw [planeOf_of_gt hgt]
    exact State.refuseRead_eq ..
  · refine acts_atLastParam h ((if_neg (mt (ImagePort.isFilling_iff _).1 hfill)).trans ?_)
    rw [planeOf_of_le hle]
    exact State.giveReply_eq ..

/-! ### FACE SEAL and FACE RETIRE -/

theorem LineTable.usesFace_iff (t : LineTable) (f : Nat) : t.usesFace f = true ↔ ∃ slot, slot < 210 ∧
    (t.slot slot).record.isSet = true ∧ ∃ q ∈ (t.slot slot).record.placements, q.face = f := by
  have places (l : LineSlot) :
      l.placesFace f = true ↔ l.record.isSet = true ∧ ∃ q ∈ l.record.placements, q.face = f := by
    simp [LineSlot.placesFace]
  constructor
  · intro h
    obtain ⟨l, hl, hp⟩ := List.any_eq_true.1 h
    obtain ⟨i, hi, rfl⟩ := Vector.mem_iff_getElem.1 (Vector.mem_toList_iff.1 hl)
    refine ⟨i, hi, ?_⟩
    rw [LineTable.slot, look_of_lt _ _ _ hi]
    exact (places _).1 hp
  · rintro ⟨slot, hlt, hp⟩
    rw [LineTable.slot, look_of_lt _ _ _ hlt] at hp
    exact List.any_eq_true.2 ⟨_, Vector.mem_toList_iff.2 (Vector.getElem_mem hlt), (places _).2 hp⟩

theorem State.faceSeal_of_le {p : State} {ps : List Byte} (h : field ps 0 1 ≤ 15) : p.faceSeal ps =
    if (p.faces.face (field ps 0 1)).state = .loading then
      p.onFaces fun fs => fs.setFace (field ps 0 1) { fs.face (field ps 0 1) with state := .ready }
    else p.refuse Cmd.faceSeal.code .wrongState := by
  rw [State.faceSeal, faceOf_of_le h]

theorem State.faceRetire_of_le {p : State} {ps : List Byte} (h : field ps 0 1 ≤ 15) : p.faceRetire ps =
    if p.composing then p.refuse Cmd.faceRetire.code .busy
    else if p.lines.usesFace (field ps 0 1) then p.refuse Cmd.faceRetire.code .inUse
    else if (p.faces.face (field ps 0 1)).state = .empty then p
    else p.onFaces fun fs => fs.emptyFace (field ps 0 1) := by
  rw [State.faceRetire, faceOf_of_le h]
  rfl

/-- Settles O32: the checks in their order. -/
theorem faceSealAndRetire : Obligations.FaceSealAndRetire := by
  intro s ps p f
  refine ⟨fun h => ⟨fun hgt => ?_, fun hle hst => ?_, fun hle hst => ?_⟩, fun h => ?_⟩
  · refine acts_atLastParam h ?_
    rw [State.faceSeal, faceOf_of_gt hgt]
    rfl
  · exact acts_atLastParam h ((State.faceSeal_of_le hle).trans (if_neg hst))
  · exact acts_atLastParam h ((State.faceSeal_of_le hle).trans (if_pos hst))
  · intro inUse
    have huses : p.lines.usesFace f = true ↔ inUse := p.lines.usesFace_iff f
    refine ⟨fun hgt => ?_, fun hle hj => ?_, fun hle hj hu => ?_, fun hle hj hu hst => ?_, fun hle hj hu hst => ?_⟩
    · refine acts_atLastParam h ?_
      rw [State.faceRetire, faceOf_of_gt hgt]
      rfl
    · exact acts_atLastParam h ((State.faceRetire_of_le hle).trans (if_pos (p.composing_iff.2 hj)))
    · exact acts_atLastParam h ((State.faceRetire_of_le hle).trans
        ((if_neg (State.not_composing hj)).trans (if_pos (huses.2 hu))))
    · exact acts_atLastParam h ((State.faceRetire_of_le hle).trans
        ((if_neg (State.not_composing hj)).trans ((if_neg (mt huses.1 hu)).trans (if_pos hst))))
    · exact acts_atLastParam h ((State.faceRetire_of_le hle).trans
        ((if_neg (State.not_composing hj)).trans ((if_neg (mt huses.1 hu)).trans (if_neg hst))))

/-! ### GLYPH PUT -/

/-- The entry that a GLYPH PUT header describes, its run not yet found (R21). -/
def headerGlyph (ps : List Byte) : Glyph :=
  ⟨field ps 0 1, field ps 1 3, field ps 4 1, signedField ps 5, signedField ps 6, field ps 7 1, field ps 8 1, none,
    bitmapBlocks (field ps 7 1) (field ps 8 1)⟩

/-- A header is read exactly when each field is in its range. -/
theorem glyphOf_eq (ps : List Byte) :
    (15 < field ps 0 1 ∨ 0x10FFFF < field ps 1 3 ∨ 128 < field ps 7 1 ∨ 160 < field ps 8 1 → glyphOf ps = none) ∧
    (¬ (15 < field ps 0 1 ∨ 0x10FFFF < field ps 1 3 ∨ 128 < field ps 7 1 ∨ 160 < field ps 8 1) →
      glyphOf ps = some (headerGlyph ps)) := by
  have hok : (field ps 0 1 ≤ 15 ∧ field ps 1 3 ≤ 0x10FFFF ∧ field ps 7 1 ≤ 128 ∧ field ps 8 1 ≤ 160) ↔
      ¬ (15 < field ps 0 1 ∨ 0x10FFFF < field ps 1 3 ∨ 128 < field ps 7 1 ∨ 160 < field ps 8 1) := by omega
  exact ⟨fun h => if_neg fun hc => hok.1 hc h, fun h => if_pos (hok.2 h)⟩

theorem FaceStore.entry_eq_none_iff (fs : FaceStore) (face code : Nat) :
    fs.entry face code = none ↔ ∀ g ∈ fs.directory, ¬ (g.face = face ∧ g.code = code) := by
  simp [FaceStore.entry, List.find?_eq_none]

/-- The store has no room for the entry of a new glyph (R21). -/
def FaceStore.FullFor (fs : FaceStore) (face code : Nat) : Prop :=
  (∀ g ∈ fs.directory, ¬ (g.face = face ∧ g.code = code)) ∧ 4096 ≤ fs.directory.length

theorem FaceStore.fullFor_iff (fs : FaceStore) (face code : Nat) :
    ((fs.entry face code).isNone ∧ Config.directoryEntries ≤ fs.directory.length) ↔ fs.FullFor face code := by
  rw [Option.isNone_iff_eq_none, FaceStore.entry_eq_none_iff]
  rfl

section
variable {p : State} {ps : List Byte} {g : Glyph}

theorem State.glyphPut_of_none (h : glyphOf ps = none) : p.glyphPut ps = p.refuse Cmd.glyphPut.code .badParam := by
  rw [State.glyphPut, h]

theorem State.glyphPut_of_notLoading (h : glyphOf ps = some g) (hl : (p.faces.face g.face).state ≠ .loading) :
    p.glyphPut ps = p.refuse Cmd.glyphPut.code .wrongState := by
  simp only [State.glyphPut, h, if_pos hl]

theorem State.glyphPut_of_full (h : glyphOf ps = some g) (hl : (p.faces.face g.face).state = .loading)
    (hf : p.faces.FullFor g.face g.code) : p.glyphPut ps = p.refuse Cmd.glyphPut.code .full := by
  simp only [State.glyphPut, h, if_neg (not_not.2 hl), if_pos ((FaceStore.fullFor_iff _ _ _).2 hf)]

theorem State.glyphPut_of_empty (h : glyphOf ps = some g) (hl : (p.faces.face g.face).state = .loading)
    (hf : ¬ p.faces.FullFor g.face g.code) (hk : g.blockCount = 0) : p.glyphPut ps = p.acceptGlyph g none := by
  simp only [State.glyphPut, h, if_neg (not_not.2 hl), if_neg (mt (FaceStore.fullFor_iff _ _ _).1 hf), if_pos hk]

theorem State.glyphPut_of_blocks (h : glyphOf ps = some g) (hl : (p.faces.face g.face).state = .loading)
    (hf : ¬ p.faces.FullFor g.face g.code) (hk : g.blockCount ≠ 0) :
    (p.faces.freeRun g.blockCount = none → p.glyphPut ps = p.refuse Cmd.glyphPut.code .noSpace) ∧
    (∀ b, p.faces.freeRun g.blockCount = some b → p.glyphPut ps = p.acceptGlyph g (some b)) := by
  simp only [State.glyphPut, h, if_neg (not_not.2 hl), if_neg (mt (FaceStore.fullFor_iff _ _ _).1 hf), if_neg hk]
  exact ⟨fun hn => by rw [hn], fun b hb => by rw [hb]⟩

end

/-- A byte of the bitmap being received. -/
theorem acts_glyphByte {s t : State} {b : Byte} (h : s.AtParam b) (ht : s.link.taking = .glyph)
    (hact : s.dropFront.glyphByte b = t) : exec .glyphBitmapByte s = .next t.settleCut :=
  acts_atStreamByte h (by rw [ht]; rfl) hact

/-- Settles O34: the header's checks in their order, its entry, and a byte of the bitmap, the last one or not. -/
theorem glyphPutReceivesItsBitmap : Obligations.GlyphPutReceivesItsBitmap := by
  refine ⟨fun s ps h => ?_, fun s b r g first h ht hr hg hfirst hc => ?_⟩
  · intro p f code w hgt bytes k bad new full
    obtain ⟨hnone, hsome⟩ := glyphOf_eq ps
    refine ⟨fun hbad => acts_atLastParam h (State.glyphPut_of_none (hnone hbad)),
      fun hbad hl => acts_atLastParam h (State.glyphPut_of_notLoading (hsome hbad) hl),
      fun hbad hl hf => acts_atLastParam h (State.glyphPut_of_full (hsome hbad) hl hf),
      fun hbad hl hf hk hrun => acts_atLastParam h
        ((State.glyphPut_of_blocks (hsome hbad) hl hf (Nat.ne_of_gt hk)).1 hrun), fun run hbad hl hf hrun => ?_⟩
    have haccept : p.glyphPut ps = p.acceptGlyph (headerGlyph ps) run := by
      rcases hrun with ⟨hk, rfl⟩ | ⟨hk, hne, hrun⟩
      · exact State.glyphPut_of_empty (hsome hbad) hl hf hk
      · obtain ⟨a, rfl⟩ := Option.ne_none_iff_exists'.1 hne
        exact (State.glyphPut_of_blocks (hsome hbad) hl hf (Nat.ne_of_gt hk)).2 a hrun
    exact ⟨_, acts_atLastParam h (haccept.trans (State.acceptGlyph_eq rfl _ run)), placeGlyph_perm _ _⟩
  · intro last
    have hbyte := State.glyphByte_eq (s := s.dropFront) ht b hr hg
    obtain ⟨-, -, -, -, hpool⟩ := hc
    have hat : Config.blockBytes * g.firstBlock.getD 0 + r.got = 128 * first + r.got := by rw [hfirst]; rfl
    refine ⟨s.faces.pool.write (128 * first + r.got) b, ?_, Memory.read_write_self _ _ _ 0 hpool,
      fun a ha => Memory.read_write_other _ _ _ _ 0 hpool ha⟩
    rw [← hat]
    by_cases hlast : last
    · rw [if_pos hlast, if_pos hlast]
      exact acts_glyphByte h ht (hbyte.trans (if_pos hlast))
    · rw [if_neg hlast, if_neg hlast]
      exact acts_glyphByte h ht (hbyte.trans (if_neg hlast))

end Sys2Proof.Machine
end

section
/-! PROOF. REFRESH with the display, blank and setting commands (R136 to R139, R157, R165), and the waveform tables with the
temperature (R145, R146, R148 to R151, R153). -/

namespace Sys2Proof.Machine

/-! ### The operands of the setting commands -/

theorem modeOf_rank (m : Mode) : modeOf (m.rank + 1) = some m := by
  cases m <;> rfl

theorem modeOf_of_bad {n : Nat} (h : n = 0 ∨ 3 < n) : modeOf n = none := by
  unfold modeOf
  rw [if_neg (by omega), if_neg (by omega), if_neg (by omega)]

theorem clampX_eq (x : Nat) : clampX x = min x 1247 := by
  unfold clampX
  omega

theorem clampY_eq (y : Nat) : clampY y = min y 1663 := by
  unfold clampY
  omega

theorem refreshOf_of_bad {ps : List Byte} (h : field ps 4 2 < field ps 0 2 ∨ field ps 6 2 < field ps 2 2 ∨
    field ps 8 1 = 0 ∨ 3 < field ps 8 1) : refreshOf ps = none := by
  unfold refreshOf rectOf
  rcases h with h | h | h
  · cases modeOf (field ps 8 1) with
    | none => rfl
    | some m => exact if_neg fun hc => Nat.not_lt.2 hc.1 h
  · cases modeOf (field ps 8 1) with
    | none => rfl
    | some m => exact if_neg fun hc => Nat.not_lt.2 hc.2 h
  · rw [modeOf_of_bad h]
    rfl

theorem refreshOf_of_mode {ps : List Byte} {m : Mode} (hx : field ps 0 2 ≤ field ps 4 2)
    (hy : field ps 2 2 ≤ field ps 6 2) (hm : field ps 8 1 = m.rank + 1) : refreshOf ps =
      some ⟨⟨min (field ps 0 2) 1247, min (field ps 2 2) 1663, min (field ps 4 2) 1247, min (field ps 6 2) 1663⟩, m,
        .explicit, false⟩ := by
  unfold refreshOf rectOf
  rw [hm, modeOf_rank, ← clampX_eq, ← clampX_eq, ← clampY_eq, ← clampY_eq]
  exact if_pos ⟨hx, hy⟩

theorem schedSettingsOf_of_bad {ps : List Byte} (h : field ps 0 1 = 0 ∨ 3 < field ps 0 1 ∨ field ps 1 1 = 0 ∨
    3 < field ps 1 1 ∨ 1 < field ps 4 1) : schedSettingsOf ps = none := by
  unfold schedSettingsOf
  by_cases h0 : field ps 0 1 = 0 ∨ 3 < field ps 0 1
  · rw [modeOf_of_bad h0]
    rfl
  by_cases h1 : field ps 1 1 = 0 ∨ 3 < field ps 1 1
  · rw [modeOf_of_bad h1]
    cases modeOf (field ps 0 1) <;> rfl
  · have h4 : 1 < field ps 4 1 := by omega
    rw [flagOf_eq, if_pos h4]
    cases modeOf (field ps 0 1) <;> cases modeOf (field ps 1 1) <;> rfl

theorem schedSettingsOf_of_modes {ps : List Byte} {a b : Mode} (ha : field ps 0 1 = a.rank + 1)
    (hb : field ps 1 1 = b.rank + 1) (h : field ps 4 1 ≤ 1) : schedSettingsOf ps =
      some ⟨a, b, field ps 2 1, field ps 3 1, decide (field ps 4 1 = 1)⟩ := by
  unfold schedSettingsOf
  rw [ha, hb, modeOf_rank, modeOf_rank, flagOf_eq, if_neg (Nat.not_lt.2 h)]
  rfl

theorem framePeriodOf_eq (ps : List Byte) : framePeriodOf ps =
    if field ps 0 1 < 8 then 8 else if 25 < field ps 0 1 then 25 else field ps 0 1 := by
  unfold framePeriodOf clampNat
  split_ifs <;> omega

theorem supplySettingsOf_eq (ps : List Byte) : supplySettingsOf ps =
    ⟨if field ps 0 1 = 0 then 1 else field ps 0 1, if 15 < field ps 1 1 then 15 else field ps 1 1, field ps 2 1⟩ := by
  have h : field ps 0 1 < 256 := field_lt ps 0 1
  have htimeout : clampNat 1 255 (field ps 0 1) = if field ps 0 1 = 0 then 1 else field ps 0 1 := by
    unfold clampNat
    split_ifs <;> omega
  have hfilter : clampNat 0 15 (field ps 1 1) = if 15 < field ps 1 1 then 15 else field ps 1 1 := by
    unfold clampNat
    split_ifs <;> omega
  rw [supplySettingsOf, htimeout, hfilter]

theorem State.refresh_of_none {p : State} {ps : List Byte} (h : refreshOf ps = none) :
    p.refresh ps = p.refuse Cmd.refresh.code .badParam := by
  rw [State.refresh, h]

theorem State.refresh_of_some {p : State} {ps : List Byte} {r : Request} (h : refreshOf ps = some r) :
    p.refresh ps = p.post r := by
  rw [State.refresh, h]

theorem State.schedSet_of_none {p : State} {ps : List Byte} (h : schedSettingsOf ps = none) :
    p.schedSet ps = p.refuse Cmd.schedSet.code .badParam := by
  rw [State.schedSet, h]

theorem State.schedSet_of_some {p : State} {ps : List Byte} {c : SchedSettings} (h : schedSettingsOf ps = some c) :
    p.schedSet ps = { p with sched := { p.sched with settings := c } } := by
  rw [State.schedSet, h]

/-- BLANK ON keeps the entries that are of neither the renderer nor the image port. -/
theorem blankFilter_eq (queue : List Request) :
    (queue.filter fun (e : Request) => !(e.origin == Origin.render || e.origin == Origin.window)) =
      queue.filter fun (e : Request) => decide (e.origin ≠ Origin.render ∧ e.origin ≠ Origin.window) := by
  refine List.filter_congr fun e _ => ?_
  cases e.origin <;> rfl

/-- Settles O51: each setting command by its operands' ranges, each display and blank command by the state in force. -/
theorem refreshDisplayAndSettingsCommands : Obligations.RefreshDisplayAndSettingsCommands := by
  unfold Obligations.RefreshDisplayAndSettingsCommands
  refine ⟨fun s ps => ⟨fun h => ⟨fun hbad => ?_, fun m hbad hm => ?_⟩, fun h => ⟨fun hbad => ?_, fun a b hbad ha hb => ?_⟩,
    fun h => acts_atLastParam h ?_, fun h => acts_atLastParam h ?_⟩, fun s ha => ⟨fun h => ⟨fun hi => ?_, fun hi => ?_⟩,
      fun h => ⟨fun hi => ?_, fun hi => ?_⟩, fun h => ⟨fun hb => ?_, fun hb => ?_⟩, fun h => ⟨fun hb => ?_, fun hb => ?_⟩⟩⟩
  · exact acts_atLastParam h (State.refresh_of_none (refreshOf_of_bad hbad))
  · exact acts_atLastParam h (State.refresh_of_some (refreshOf_of_mode (by omega) (by omega) hm))
  · exact acts_atLastParam h (State.schedSet_of_none (schedSettingsOf_of_bad hbad))
  · exact acts_atLastParam h (State.schedSet_of_some (schedSettingsOf_of_modes ha hb (by omega)))
  · rw [← framePeriodOf_eq]
    rfl
  · rw [← supplySettingsOf_eq]
    rfl
  · exact acts_atCommand h (.inl ha) (if_pos hi)
  · exact acts_atCommand h (.inl ha) (if_neg (by rw [hi]; exact Bool.noConfusion))
  · exact acts_atCommand h (.inl ha) (if_pos hi)
  · exact acts_atCommand h (.inl ha) (if_neg (by rw [hi]; exact Bool.noConfusion))
  · exact acts_atCommand h (.inl ha) (if_pos hb)
  · rw [← blankFilter_eq]
    exact acts_atCommand h (.inl ha) (if_neg (ne_true_of_eq_false hb))
  · exact acts_atCommand h (.inl ha) (if_neg (ne_true_of_eq_false hb))
  · exact acts_atCommand h (.inl ha) (if_pos hb)

/-! ### WAVE LOAD -/

theorem waveModeOf_rank (m : Mode) : waveModeOf m.rank = some m := by
  cases m <;> rfl

theorem waveModeOf_of_gt {n : Nat} (h : 2 < n) : waveModeOf n = none := by
  unfold waveModeOf
  rw [if_neg (by omega), if_neg (by omega), if_neg (by omega)]

theorem waveHeaderOf_of_bad {ps : List Byte} (h : 2 < field ps 0 1 ∨ 7 < field ps 1 1 ∨ field ps 2 1 = 0) :
    waveHeaderOf ps = none := by
  unfold waveHeaderOf
  rcases h with h | h
  · rw [waveModeOf_of_gt h]
    rfl
  · have hbad : ¬ (field ps 1 1 ≤ 7 ∧ field ps 2 1 ≠ 0) := by omega
    cases waveModeOf (field ps 0 1) with
    | none => rfl
    | some m => exact if_neg hbad

theorem waveHeaderOf_of_mode {ps : List Byte} {m : Mode} (hm : field ps 0 1 = m.rank) (hb : field ps 1 1 ≤ 7)
    (hn : field ps 2 1 ≠ 0) : waveHeaderOf ps = some (m, field ps 1 1, field ps 2 1) := by
  unfold waveHeaderOf
  rw [hm, waveModeOf_rank]
  exact if_pos ⟨hb, hn⟩

theorem Scheduler.usesTable_iff (q : Scheduler) (m : Mode) (band : Nat) :
    q.usesTable m band = true ↔ ∃ i d, q.slot i = some d ∧ d.mode = m ∧ d.band = band := by
  unfold Scheduler.usesTable
  rw [List.any_eq_true]
  constructor
  · rintro ⟨i, -, h⟩
    cases hd : q.slot i with
    | none => simp [hd] at h
    | some d => exact ⟨i, d, hd, by simpa [hd] using h⟩
  · rintro ⟨i, d, hd, hm, hb⟩
    exact ⟨i, List.mem_range.2 (Scheduler.slot_lt hd), by simp [hd, hm, hb]⟩

theorem State.waveLoad_of_some {p : State} {ps : List Byte} {m : Mode} {band length : Nat}
    (h : waveHeaderOf ps = some (m, band, length)) : p.waveLoad ps =
      if p.sched.usesTable m band then p.refuse Cmd.waveLoad.code .inUse
      else (p.onDrive fun d => d.setTable m band (.loading length [])).setTaking (.wave m band) := by
  simp only [State.waveLoad, h]

/-- A byte of the table that is LOADING, the last one or not. -/
theorem State.waveByte_of_loading {q : State} {m : Mode} {band length : Nat} {data : List Byte} (b : Byte)
    (ht : q.link.taking = .wave m band) (htable : q.drive.table m band = .loading length data) :
    q.waveByte b = if length * 64 ≤ data.length + 1 then
        ((q.onDrive fun d => d.setTable m band (.ready length (data ++ [b]))).setTaking .ignoring).scan
      else q.onDrive fun d => d.setTable m band (.loading length (data ++ [b])) := by
  simp only [State.waveByte, ht, htable]

theorem acts_waveByte {s t : State} {b : Byte} {m : Mode} {band : Nat} (h : s.AtParam b)
    (ht : s.link.taking = .wave m band) (hact : s.dropFront.waveByte b = t) :
    exec .waveFrameByte s = .next t.settleCut :=
  acts_atStreamByte h (by rw [ht]; rfl) hact

/-! ### The bands -/

/-- Seven thresholds given by their places. -/
def sevenOf (f : Nat → Int) : Vector Int 7 := #v[f 0, f 1, f 2, f 3, f 4, f 5, f 6]

theorem look_sevenOf (f : Nat → Int) {k : Nat} (h : k < 7) : look (sevenOf f) k 0 = f k := by
  interval_cases k <;> rfl

/-- The ranges of R149, threshold by threshold. -/
theorem BandSettings.legal_sevenOf_iff (f : Nat → Int) (hyst : Nat) (tmin tmax : Int) :
    (⟨sevenOf f, hyst, tmin, tmax⟩ : BandSettings).legal = true ↔
      (∀ k, k < 7 → -20 ≤ f k ∧ f k ≤ 70) ∧ (∀ k, k < 6 → f k < f (k + 1)) ∧ hyst ≤ 7 ∧
        (-20 ≤ tmin ∧ tmin ≤ 70) ∧ (-20 ≤ tmax ∧ tmax ≤ 70) ∧ tmin < tmax := by
  have hrange : (∀ k, k < 7 → -20 ≤ f k ∧ f k ≤ 70) ↔ (-20 ≤ f 0 ∧ f 0 ≤ 70) ∧ (-20 ≤ f 1 ∧ f 1 ≤ 70) ∧
      (-20 ≤ f 2 ∧ f 2 ≤ 70) ∧ (-20 ≤ f 3 ∧ f 3 ≤ 70) ∧ (-20 ≤ f 4 ∧ f 4 ≤ 70) ∧ (-20 ≤ f 5 ∧ f 5 ≤ 70) ∧
      (-20 ≤ f 6 ∧ f 6 ≤ 70) := by
    refine ⟨fun h => ⟨h 0 (by omega), h 1 (by omega), h 2 (by omega), h 3 (by omega), h 4 (by omega), h 5 (by omega),
      h 6 (by omega)⟩, fun h k hk => ?_⟩
    interval_cases k <;> omega
  have hrise : (∀ k, k < 6 → f k < f (k + 1)) ↔
      f 0 < f 1 ∧ f 1 < f 2 ∧ f 2 < f 3 ∧ f 3 < f 4 ∧ f 4 < f 5 ∧ f 5 < f 6 := by
    refine ⟨fun h => ⟨h 0 (by omega), h 1 (by omega), h 2 (by omega), h 3 (by omega), h 4 (by omega), h 5 (by omega)⟩,
      fun ⟨h0, h1, h2, h3, h4, h5⟩ k hk => ?_⟩
    interval_cases k <;> assumption
  rw [hrange, hrise]
  simp [BandSettings.legal, sevenOf]
  tauto

/-- The highest band whose lower edge is at or below the reading; band 0 has none (R148). -/
def HighestBand (lower : Nat → Int) (t : Int) (k : Nat) : Prop :=
  k ≤ 7 ∧ (1 ≤ k → lower k ≤ t) ∧ ∀ j, k < j → j ≤ 7 → t < lower j

/-- The fold of `bandOf` over the first `n` bands. -/
def BandSettings.bandBelow (b : BandSettings) (t : Int) (n : Nat) : Nat :=
  (List.range n).foldl (fun best k => if k = 0 ∨ look b.thresholds (k - 1) 0 ≤ t then k else best) 0

theorem BandSettings.bandOf_eq (b : BandSettings) (t : Int) : b.bandOf t = b.bandBelow t 8 := rfl

theorem BandSettings.bandBelow_succ (b : BandSettings) (t : Int) (n : Nat) : b.bandBelow t (n + 1) =
    if n = 0 ∨ look b.thresholds (n - 1) 0 ≤ t then n else b.bandBelow t n := by
  rw [BandSettings.bandBelow, List.range_succ, List.foldl_append]
  rfl

theorem BandSettings.bandBelow_spec (b : BandSettings) (t : Int) (n : Nat) :
    b.bandBelow t (n + 1) ≤ n ∧
      (1 ≤ b.bandBelow t (n + 1) → look b.thresholds (b.bandBelow t (n + 1) - 1) 0 ≤ t) ∧
      ∀ j, b.bandBelow t (n + 1) < j → j ≤ n → t < look b.thresholds (j - 1) 0 := by
  induction n with
  | zero =>
    have hzero : b.bandBelow t (0 + 1) = 0 := rfl
    rw [hzero]
    exact ⟨Nat.le_refl 0, fun h => absurd h (by decide), fun j hj hn => absurd hj (by omega)⟩
  | succ n ih =>
    obtain ⟨hle, hlow, hhigh⟩ := ih
    rw [BandSettings.bandBelow_succ]
    by_cases ht : look b.thresholds (n + 1 - 1) 0 ≤ t
    · rw [if_pos (.inr ht)]
      exact ⟨Nat.le_refl _, fun _ => ht, fun j hj hn => by omega⟩
    · rw [if_neg (by simpa using ht)]
      refine ⟨Nat.le_succ_of_le hle, hlow, fun j hj hn => ?_⟩
      rcases Nat.lt_or_ge n j with hlt | hge
      · have hj : j = n + 1 := by omega
        rw [hj]
        exact Int.not_le.1 ht
      · exact hhigh j hj hge

theorem BandSettings.bandOf_highest (b : BandSettings) (t : Int) :
    HighestBand (fun k => look b.thresholds (k - 1) 0) t (b.bandOf t) := by
  rw [BandSettings.bandOf_eq]
  exact b.bandBelow_spec t 7

theorem HighestBand.congr {f g : Nat → Int} {t : Int} {k : Nat} (h : HighestBand f t k)
    (hfg : ∀ j, 1 ≤ j → j ≤ 7 → f j = g j) : HighestBand g t k := by
  obtain ⟨hle, hlow, hhigh⟩ := h
  refine ⟨hle, fun h1 => ?_, fun j hj h7 => ?_⟩
  · rw [← hfg k h1 hle]
    exact hlow h1
  · rw [← hfg j (by omega) h7]
    exact hhigh j hj h7

theorem temperatureOf_eq (ps : List Byte) : temperatureOf ps =
    if signedField ps 0 < -40 then -40 else if 100 < signedField ps 0 then 100 else signedField ps 0 := by
  unfold temperatureOf clampInt
  split_ifs <;> omega

/-- The reading moves the band by hysteresis, up or down (R150). -/
def PanelDrive.Leaves (d : PanelDrive) (t : Int) : Prop :=
  (d.band < 7 ∧ look d.bands.thresholds d.band 0 ≤ t) ∨
    (0 < d.band ∧ t < look d.bands.thresholds (d.band - 1) 0 - (d.bands.hysteresis : Int))

theorem PanelDrive.bandAfter_cases (d : PanelDrive) (t : Int) :
    ((d.firstReading = true ∨ d.Leaves t) → d.bandAfter t = d.bands.bandOf t) ∧
    (d.firstReading = false → ¬ d.Leaves t → d.bandAfter t = d.band) := by
  unfold PanelDrive.bandAfter PanelDrive.Leaves
  dsimp only
  refine ⟨fun h => ?_, fun hf h => ?_⟩
  · split_ifs with h1 h2 h3
    · rfl
    · rfl
    · rfl
    · rcases h with h | h | h
      · exact absurd h h1
      · exact absurd h h2
      · exact absurd h h3
  · rw [not_or] at h
    simp only [hf, Bool.false_eq_true, if_false, if_neg h.1, if_neg h.2]

/-- A reading is reported where it lies in the range that the drive uses. -/
theorem State.reportReading_of_reading {q : State} {t : Int} (h : q.drive.reading = some t) :
    (q.drive.bands.tmin ≤ t ∧ t ≤ q.drive.bands.tmax → q.reportReading = q.scan) ∧
    (¬ (q.drive.bands.tmin ≤ t ∧ t ≤ q.drive.bands.tmax) → q.reportReading = q) := by
  refine ⟨fun hu => if_pos (q.drive.usable_iff.2 ⟨t, h, hu⟩), fun hu => if_neg fun hc => ?_⟩
  obtain ⟨u, hu', hin⟩ := q.drive.usable_iff.1 hc
  cases h.symm.trans hu'
  exact hu hin

theorem State.reportReading_of_none {q : State} (h : q.drive.reading = none) : q.reportReading = q :=
  if_neg fun hc => by
    obtain ⟨u, hu, -⟩ := q.drive.usable_iff.1 hc
    cases h.symm.trans hu

theorem State.bandsSet_of_none {p : State} {ps : List Byte} (h : bandSettingsOf ps = none) :
    p.bandsSet ps = p.refuse Cmd.bandsSet.code .badParam := by
  rw [State.bandsSet, h]

theorem State.bandsSet_of_some {p : State} {ps : List Byte} {b : BandSettings} (h : bandSettingsOf ps = some b) :
    p.bandsSet ps =
      (p.onDrive fun d => { d with bands := b, band := b.bandHeld d.reading d.band }).reportReading := by
  rw [State.bandsSet, h]

/-- The settings that BANDS SET names. -/
def bandsNamed (ps : List Byte) : BandSettings :=
  ⟨sevenOf (signedField ps), field ps 7 1, signedField ps 8, signedField ps 9⟩

theorem bandSettingsOf_of_legal {ps : List Byte} (h : (bandsNamed ps).legal = true) :
    bandSettingsOf ps = some (bandsNamed ps) := if_pos h

theorem bandSettingsOf_of_not {ps : List Byte} (h : ¬ (bandsNamed ps).legal = true) : bandSettingsOf ps = none :=
  if_neg h

/-- Settles O59: the waveform tables, the bands and the readings, each row by its checks. -/
theorem wavesAndTemperature : Obligations.WavesAndTemperature := by
  unfold Obligations.WavesAndTemperature
  intro highest
  refine ⟨fun s ps h => ⟨fun hbad => ?_, fun m hbad hm => ⟨fun huse => ?_, fun huse => ?_⟩⟩,
    fun s b m band length data h ht htable => ⟨fun hmore => ?_, fun hlast => ?_⟩, fun s ps h => ?_, fun s ps h => ?_,
    fun s => ⟨fun hr => congrArg _ (if_pos hr), fun hr => congrArg _ (if_neg hr)⟩⟩
  · refine acts_atLastParam h ?_
    rw [State.waveLoad, waveHeaderOf_of_bad hbad]
    rfl
  · have hhead := waveHeaderOf_of_mode hm (by omega) (by omega)
    exact acts_atLastParam h ((State.waveLoad_of_some hhead).trans (if_pos ((Scheduler.usesTable_iff _ _ _).2 huse)))
  · have hhead := waveHeaderOf_of_mode hm (by omega) (by omega)
    exact acts_atLastParam h
      ((State.waveLoad_of_some hhead).trans (if_neg (mt (Scheduler.usesTable_iff _ _ _).1 huse)))
  · exact acts_waveByte h ht ((State.waveByte_of_loading (q := s.dropFront) b ht htable).trans (if_neg (by omega)))
  · exact acts_waveByte h ht ((State.waveByte_of_loading (q := s.dropFront) b ht htable).trans (if_pos (by omega)))
  · intro p ts ranged legal bands
    have hlegal : (bandsNamed ps).legal = true ↔ legal := by
      refine (BandSettings.legal_sevenOf_iff ..).trans
        (and_congr ⟨fun h k h1 h7 => h (k - 1) (by omega), fun h k hk => h (k + 1) (by omega) (by omega)⟩
          (and_congr_left' ⟨fun h k h1 h6 => ?_, fun h k hk => h (k + 1) (by omega) (by omega)⟩))
      have hk : k - 1 + 1 = k := by omega
      have hrise := h (k - 1) (by omega)
      rw [hk] at hrise
      exact hrise
    refine ⟨fun hl => acts_atLastParam h (State.bandsSet_of_none (bandSettingsOf_of_not (mt hlegal.1 hl))),
      fun hl hr => ?_, fun t hl hr => ⟨(bandsNamed ps).bandOf t, ?_, ?_⟩⟩
    · have hset := State.bandsSet_of_some (p := p) (bandSettingsOf_of_legal (hlegal.2 hl))
      have hnone (f : PanelDrive → PanelDrive) (hf : (f p.drive).reading = none) :
          (p.onDrive f).reportReading = p.onDrive f := State.reportReading_of_none hf
      refine acts_atLastParam h (hset.trans ((hnone _ hr).trans ?_))
      simp only [State.onDrive, BandSettings.bandHeld, hr]
      rfl
    · refine ((bandsNamed ps).bandOf_highest t).congr fun j h1 h7 => ?_
      exact look_sevenOf (signedField ps) (by omega)
    · intro q
      have hq : (p.onDrive fun d => { d with
          bands := bandsNamed ps, band := (bandsNamed ps).bandHeld d.reading d.band }) = q := by
        have hband : (bandsNamed ps).bandHeld p.drive.reading p.drive.band = (bandsNamed ps).bandOf t := by
          rw [hr]
          rfl
        simp only [State.onDrive, hband]
        rfl
      have hset := State.bandsSet_of_some (p := p) (bandSettingsOf_of_legal (hlegal.2 hl))
      rw [hq] at hset
      obtain ⟨hin, hout⟩ := State.reportReading_of_reading (q := q) hr
      exact ⟨fun hu => acts_atLastParam h (hset.trans (hin hu)), fun hu => acts_atLastParam h (hset.trans (hout hu))⟩
  · intro p v t b ts moves
    obtain ⟨hmove, hstay⟩ := p.drive.bandAfter_cases t
    refine ⟨p.drive.bandAfter t, fun hm => ?_, hstay, ?_⟩
    · rw [hmove hm]
      exact p.drive.bands.bandOf_highest t
    · intro q
      have hset : p.tempSet ps = q.reportReading := by
        unfold State.tempSet
        rw [temperatureOf_eq]
        rfl
      obtain ⟨hin, hout⟩ := State.reportReading_of_reading (q := q) (t := t) rfl
      exact ⟨fun hu => acts_atLastParam h (hset.trans (hin hu)), fun hu => acts_atLastParam h (hset.trans (hout hu))⟩

end Sys2Proof.Machine
end

section
/-! PROOF. Render start (R92 to R98): the description of a line, its bytes and its signature. -/

namespace Sys2Proof.Machine

/-! ### Insertion in order

A list of marks built by inserting each at its place rises, if their ids differ. -/

/-- `ins` puts a mark before the first of a list that it comes before. -/
def InsertsBy (before : Mark → Mark → Prop) (ins : Mark → List Mark → List Mark) : Prop :=
  (∀ m, ins m [] = [m]) ∧ ∀ m h rest,
    (before m h ∧ ins m (h :: rest) = m :: h :: rest) ∨ (¬ before m h ∧ ins m (h :: rest) = h :: ins m rest)

/-- A relation that orders any two marks of different ids. -/
structure OrdersMarks (before : Mark → Mark → Prop) : Prop where
  trans : ∀ a b c, before a b → before b c → before a c
  total : ∀ a b : Mark, a.id ≠ b.id → ¬ before a b → before b a

theorem InsertsBy.perm {before : Mark → Mark → Prop} {ins : Mark → List Mark → List Mark} (h : InsertsBy before ins)
    (m : Mark) (l : List Mark) : (ins m l).Perm (m :: l) := by
  induction l with
  | nil => rw [h.1]
  | cons a rest ih =>
    rcases h.2 m a rest with ⟨-, e⟩ | ⟨-, e⟩ <;> rw [e]
    exact (ih.cons a).trans (.swap ..)

theorem InsertsBy.pairwise {before : Mark → Mark → Prop} {ins : Mark → List Mark → List Mark} (h : InsertsBy before ins)
    (ho : OrdersMarks before) {m : Mark} {l : List Mark} (hl : l.Pairwise before) (hnew : ∀ k ∈ l, k.id ≠ m.id) :
    (ins m l).Pairwise before := by
  induction l with
  | nil => rw [h.1]; exact List.pairwise_singleton ..
  | cons a rest ih =>
    obtain ⟨ha, hrest⟩ := List.pairwise_cons.1 hl
    obtain ⟨hne, hnew⟩ := List.forall_mem_cons.1 hnew
    rcases h.2 m a rest with ⟨hb, e⟩ | ⟨hb, e⟩ <;> rw [e]
    · refine List.pairwise_cons.2 ⟨fun k hk => ?_, hl⟩
      rcases List.mem_cons.1 hk with rfl | hk
      · exact hb
      · exact ho.trans _ _ _ hb (ha k hk)
    · refine List.pairwise_cons.2 ⟨fun k hk => ?_, ih hrest hnew⟩
      rcases List.mem_cons.1 ((h.perm m rest).mem_iff.1 hk) with rfl | hk
      · exact ho.total _ _ hne.symm hb
      · exact ha k hk

theorem InsertsBy.foldr_pairwise {before : Mark → Mark → Prop} {ins : Mark → List Mark → List Mark}
    (h : InsertsBy before ins) (ho : OrdersMarks before) {l : List Mark} (hids : (l.map Mark.id).Nodup) :
    (l.foldr ins []).Pairwise before := by
  induction l with
  | nil => exact .nil
  | cons a rest ih =>
    obtain ⟨ha, hids⟩ := List.nodup_cons.1 hids
    refine h.pairwise ho (ih hids) fun k hk hid => ha (List.mem_map.2 ⟨k, ?_, hid⟩)
    exact (foldr_insert_perm h.perm rest).mem_iff.1 hk

/-- Paint order: by layer, and within one layer by id (R95). -/
def Mark.below (a b : Mark) : Prop := a.layer < b.layer ∨ (a.layer = b.layer ∧ a.id < b.id)

theorem below_orders : OrdersMarks Mark.below where
  trans a b c := by unfold Mark.below; omega
  total a b := by unfold Mark.below; omega

theorem insertPaint_inserts : InsertsBy Mark.below insertPaint := by
  refine ⟨fun m => rfl, fun m h rest => ?_⟩
  have hbefore : m.paintsBefore h = true ↔ m.below h := by simp [Mark.paintsBefore, Mark.below]
  by_cases hb : m.below h
  · exact .inl ⟨hb, if_pos (hbefore.2 hb)⟩
  · exact .inr ⟨hb, if_neg (mt hbefore.1 hb)⟩

theorem ids_order : OrdersMarks fun a b => a.id < b.id where
  trans a b c := Nat.lt_trans
  total a b := by omega

theorem insertById_inserts : InsertsBy (fun a b => a.id < b.id) insertById := by
  refine ⟨fun m => rfl, fun m h rest => ?_⟩
  by_cases hb : m.id < h.id
  · exact .inl ⟨hb, if_pos hb⟩
  · exact .inr ⟨hb, if_neg hb⟩

/-! ### Segments -/

/-- The marks of a table that have a segment in a line, in paint order. -/
def paintedMarks (table : List Mark) (r : LineRecord) : List Mark :=
  (table.foldr insertPaint []).filter fun m => !m.muted && (m.span r).isSome

theorem paintedMarks_order {table : List Mark} (hids : (table.map Mark.id).Nodup) (r : LineRecord) :
    (paintedMarks table r).Pairwise Mark.below :=
  (insertPaint_inserts.foldr_pairwise below_orders hids).filter _

theorem mem_paintedMarks (table : List Mark) (r : LineRecord) (m : Mark) :
    m ∈ paintedMarks table r ↔ m ∈ table ∧ m.muted = false ∧ (m.span r).isSome = true := by
  rw [paintedMarks, List.mem_filter, (foldr_insert_perm insertPaint_inserts.perm table).mem_iff]
  simp only [Bool.and_eq_true, Bool.not_eq_true']

/-- The segments of the painted marks that pass a test of the style. -/
theorem segments_filter (ms : List Mark) (r : LineRecord) (test : MarkStyle → Bool) :
    (ms.filterMap fun m => m.segment r).filter (fun g => test g.style) =
      ((ms.filter fun m => !m.muted && (m.span r).isSome).filter fun m => test m.style).filterMap
        fun m => (m.span r).map fun c => (⟨m.style, m.shade, c.1, c.2⟩ : Segment) := by
  rw [List.filter_filterMap, List.filterMap_filter, List.filterMap_filter]
  refine List.filterMap_congr fun m _ => ?_
  unfold Mark.segment
  cases m.muted <;> cases m.span r <;> cases ht : test m.style <;> simp [Option.filter, ht]

theorem lineSegments_eq (table : List Mark) (r : LineRecord) : lineSegments table r =
    (((paintedMarks table r).filter fun m => m.style == .fill) ++
      (paintedMarks table r).filter fun m => !(m.style == .fill)).filterMap
        fun m => (m.span r).map fun c => (⟨m.style, m.shade, c.1, c.2⟩ : Segment) := by
  rw [List.filterMap_append]
  exact congrArg₂ (· ++ ·) (segments_filter _ r fun y => y == .fill) (segments_filter _ r fun y => !(y == .fill))

/-! ### Notes -/

theorem placeNotes_sublist (fs : FaceStore) (noteFace x : Nat) (ms : List Mark) :
    ((placeNotes fs noteFace x ms).map Note.mark).Sublist ms := by
  induction ms generalizing x with
  | nil => exact .slnil
  | cons m rest ih =>
    rw [placeNotes]
    split
    · exact (ih x).cons m
    · exact (ih _).cons_cons m

theorem lineNotes_order {table : List Mark} (hids : (table.map Mark.id).Nodup) (fs : FaceStore) (t : Template)
    (lines : LineTable) (slot : Nat) : ((lineNotes fs t table lines slot).map fun n => n.mark.id).Pairwise (· < ·) := by
  have hbeside : (notesBeside table lines slot).Pairwise fun a b => a.id < b.id :=
    insertById_inserts.foldr_pairwise ids_order (hids.sublist (List.filter_sublist.map _))
  have hmarks := hbeside.sublist (placeNotes_sublist fs t.noteFace (t.left + t.measure + 8) _)
  rw [List.pairwise_map] at hmarks ⊢
  exact hmarks

/-- The first note stands at the starting x, and each next one where the one before it ends. -/
theorem placeNotes_chain (fs : FaceStore) (noteFace x : Nat) (ms : List Mark) :
    (∀ n, (placeNotes fs noteFace x ms)[0]? = some n → n.x = x) ∧
    ∀ k a b, (placeNotes fs noteFace x ms)[k]? = some a → (placeNotes fs noteFace x ms)[k + 1]? = some b →
      b.x = a.x + a.glyph.advance := by
  induction ms generalizing x with
  | nil => exact ⟨fun n hn => by simp [placeNotes] at hn, fun k a b ha => by simp [placeNotes] at ha⟩
  | cons m rest ih =>
    rw [placeNotes]
    cases hlook : fs.exactLookup noteFace (0xE000 + m.tag.getD 0) with
    | none => exact ih x
    | some g =>
      obtain ⟨hfirst, hnext⟩ := ih (x + g.advance)
      dsimp only
      generalize placeNotes fs noteFace (x + g.advance) rest = later at hfirst hnext
      refine ⟨fun n hn => ?_, fun k a b ha hb => ?_⟩
      · rw [List.getElem?_cons_zero, Option.some_inj] at hn
        rw [← hn]
      rw [List.getElem?_cons_succ] at hb
      cases k with
      | zero =>
        rw [List.getElem?_cons_zero, Option.some_inj] at ha
        rw [hfirst b hb, ← ha]
      | succ k =>
        rw [List.getElem?_cons_succ] at ha
        exact hnext k a b ha hb

/-! ### The bytes of a description (R94) -/

theorem field_two_mod {bs : List Byte} {at_ n : Nat} (h : (bs.drop at_).take 2 = twoBytes n) :
    field bs at_ 2 = n % 65536 := by
  rw [field_eq h]
  simp only [fromBytes, twoBytes, List.foldl_cons, List.foldl_nil, byteOf_toNat]
  omega

theorem field_three_mod {bs : List Byte} {at_ n : Nat} (h : (bs.drop at_).take 3 = threeBytes n) :
    field bs at_ 3 = n % 16777216 := by
  rw [field_eq h]
  simp only [fromBytes, threeBytes, List.foldl_cons, List.foldl_nil, byteOf_toNat]
  omega

/-- The 7 bytes of a placement in a description. -/
def DescPlacement.bytes (p : DescPlacement) : List Byte := [p.kind.code, byteOf p.face] ++ threeBytes p.code ++ twoBytes p.pen

/-- The 6 bytes of a segment in a description. -/
def Segment.bytes (g : Segment) : List Byte := [g.style.code, byteOf g.shade.val] ++ twoBytes g.x0 ++ twoBytes g.x1

/-- The 3 bytes of a note in a description. -/
def DescNote.bytes (n : DescNote) : List Byte := byteOf n.tag :: twoBytes n.x

theorem DescPlacement.bytes_length (p : DescPlacement) : p.bytes.length = 7 := rfl

theorem Segment.bytes_length (g : Segment) : g.bytes.length = 6 := rfl

theorem DescNote.bytes_length (n : DescNote) : n.bytes.length = 3 := rfl

theorem Description.bytes_of_set {d : Description} (h : d.isSet = true) : d.bytes =
    d.placements.flatMap DescPlacement.bytes ++ (d.segments.flatMap Segment.bytes ++
      (d.notes.flatMap DescNote.bytes ++ [d.flags.code])) := by
  rw [Description.bytes, if_pos h, List.append_assoc, List.append_assoc]
  rfl

theorem field_descPlacement {d : Description} (h : d.isSet = true) {k : Nat} {p : DescPlacement}
    (hp : d.placements[k]? = some p) {i len : Nat} (hi : i + len ≤ 7) :
    field d.bytes (7 * k + i) len = field p.bytes i len := by
  have hk : k < d.placements.length := (List.getElem?_eq_some_iff.1 hp).1
  rw [Description.bytes_of_set h, field_append_left, field_flatMap DescPlacement.bytes_length hp hi]
  rw [length_flatMap_of DescPlacement.bytes_length]
  omega

theorem field_segment {d : Description} (h : d.isSet = true) {k : Nat} {g : Segment} (hg : d.segments[k]? = some g)
    {i len : Nat} (hi : i + len ≤ 6) :
    field d.bytes (7 * d.placements.length + 6 * k + i) len = field g.bytes i len := by
  have hk : k < d.segments.length := (List.getElem?_eq_some_iff.1 hg).1
  rw [Description.bytes_of_set h, Nat.add_assoc, ← length_flatMap_of DescPlacement.bytes_length, field_append_right,
    field_append_left, field_flatMap Segment.bytes_length hg hi]
  rw [length_flatMap_of Segment.bytes_length]
  omega

theorem field_note {d : Description} (h : d.isSet = true) {k : Nat} {n : DescNote} (hn : d.notes[k]? = some n)
    {i len : Nat} (hi : i + len ≤ 3) :
    field d.bytes (7 * d.placements.length + 6 * d.segments.length + 3 * k + i) len = field n.bytes i len := by
  have hk : k < d.notes.length := (List.getElem?_eq_some_iff.1 hn).1
  rw [Description.bytes_of_set h, Nat.add_assoc, Nat.add_assoc, ← length_flatMap_of DescPlacement.bytes_length,
    field_append_right, ← length_flatMap_of Segment.bytes_length, field_append_right, field_append_left,
    field_flatMap DescNote.bytes_length hn hi]
  rw [length_flatMap_of DescNote.bytes_length]
  omega

theorem field_descFlags {d : Description} (h : d.isSet = true) :
    field d.bytes (7 * d.placements.length + 6 * d.segments.length + 3 * d.notes.length) 1 = d.flags.code.toNat := by
  rw [Description.bytes_of_set h, Nat.add_assoc, ← length_flatMap_of DescPlacement.bytes_length, field_append_right,
    ← length_flatMap_of Segment.bytes_length, field_append_right, ← length_flatMap_of DescNote.bytes_length]
  exact (field_append_right _ _ 0 1).trans (field_byte rfl)

theorem Description.bytes_length {d : Description} (h : d.isSet = true) : d.bytes.length =
    7 * d.placements.length + 6 * d.segments.length + 3 * d.notes.length + 1 := by
  rw [Description.bytes_of_set h]
  simp only [List.length_append, length_flatMap_of DescPlacement.bytes_length, length_flatMap_of Segment.bytes_length,
    length_flatMap_of DescNote.bytes_length, List.length_singleton]
  omega

theorem LineFlags.code_toNat (f : LineFlags) : f.code.toNat =
    f.loose.toNat + 2 * f.split.toNat + 4 * f.hyphenated.toNat + 8 * f.paraEnd.toNat + 16 * f.missing.toNat := by
  obtain ⟨a, b, c, d, e⟩ := f
  revert a b c d e
  decide

/-! ### The signature (R97) -/

theorem crcShift_eq (c : BitVec 16) :
    crcShift c = if 32768 ≤ c.toNat then (c <<< 1) ^^^ 0x1021 else c <<< 1 := by
  simp only [crcShift, BitVec.msb_eq_decide, decide_eq_true_eq]

theorem crc16_append (bs : List Byte) (b : Byte) : crc16 (bs ++ [b]) = crcByte (crc16 bs) b :=
  List.foldl_append

theorem byte_high (b : Byte) : (b.zeroExtend 16 <<< 8 : BitVec 16) = BitVec.ofNat 16 (256 * b.toNat) := by
  have := b.isLt
  refine BitVec.eq_of_toNat_eq ?_
  simp [BitVec.toNat_shiftLeft, Nat.shiftLeft_eq, Nat.mul_comm]

theorem crcByte_eq (c : BitVec 16) (b : Byte) : crcByte c b =
    (List.range 8).foldl (fun c _ => crcShift c) (c ^^^ BitVec.ofNat 16 (256 * b.toNat)) := by
  rw [crcByte, byte_high]
  generalize c ^^^ BitVec.ofNat 16 (256 * b.toNat) = d
  rfl

/-! ### Render start -/

theorem State.describe_of_empty {s : State} {slot : Nat} (h : (s.lines.slot slot).record.isSet = false) :
    s.describe slot = .blank := if_neg (ne_true_of_eq_false h)

/-- The description of a SET line. -/
def State.setDescription (s : State) (slot : Nat) : Description where
  isSet := true
  placements := (s.lines.slot slot).record.placements.map fun p => ⟨p.kind, p.face, p.code, p.pen⟩
  segments := lineSegments s.marks.table (s.lines.slot slot).record
  notes := descNotes (lineNotes s.faces s.setter.template s.marks.table s.lines slot)
  flags := (s.lines.slot slot).record.flags

theorem State.describe_of_set {s : State} {slot : Nat} (h : (s.lines.slot slot).record.isSet = true) :
    s.describe slot = s.setDescription slot := if_pos h

theorem LineSlot.unchanged_iff (l : LineSlot) (d : Description) :
    l.unchanged d = true ↔ l.signature = some (crc16 d.bytes) ∧ l.length = some d.bytes.length := by
  simp [LineSlot.unchanged, Description.signature, Description.length]

theorem State.startRender_of_none {s : State} (h : s.renderer.job ≠ none ∨ s.renderer.list = []) :
    s.startRender = s := by
  unfold State.startRender
  split
  · next hj hl => exact (h.elim (fun h => h hj) fun h => by rw [hl] at h; cases h).elim
  · rfl

theorem State.startRender_of_listed {s : State} {slot : Nat} {cause : Cause} {rest : List (Nat × Cause)}
    (hj : s.renderer.job = none) (hl : s.renderer.list = (slot, cause) :: rest) : s.startRender =
      if (s.lines.slot slot).unchanged (s.describe slot) then
        ({ s with renderer := { s.renderer with list := rest } } : State).endRender
      else { s with renderer := ⟨rest, some ⟨slot, cause, s.describe slot, 0⟩⟩ } := by
  simp only [State.startRender, hj, hl]
  rfl

/-- Settles O45: an IDLE renderer's first slot is described and judged; the description's parts come in their order, and
each of their fields is read at its place among the bytes. -/
theorem renderStartDescribesOrSkips : Obligations.RenderStartDescribesOrSkips := by
  intro s
  refine ⟨fun h => congrArg _ (State.startRender_of_none h), fun slot cause rest hj hl => ?_, fun slot h => ?_,
    fun slot hm h => ?_, fun bs b => ?_, by decide +kernel⟩
  · intro d skipped same
    have hsame : (s.lines.slot slot).unchanged d = true ↔ same := LineSlot.unchanged_iff _ _
    have hstart := State.startRender_of_listed hj hl
    refine ⟨fun hs => congrArg _ (hstart.trans (if_neg (mt hsame.1 hs))), fun hs hr => ?_, fun hs hr => ?_⟩
    · exact congrArg _ ((hstart.trans (if_pos (hsame.2 hs))).trans (if_neg (mt List.isEmpty_iff.1 hr)))
    · exact congrArg _ ((hstart.trans (if_pos (hsame.2 hs))).trans (if_pos (List.isEmpty_iff.2 hr)))
  · rw [State.describe_of_empty h]
    exact ⟨rfl, rfl, rfl⟩
  · have hids : (s.marks.table.map Mark.id).Nodup := (State.marksSound_iff s |>.1 hm).table.ids
    rw [State.describe_of_set h]
    intro r d notes
    have hd : d.isSet = true := rfl
    obtain ⟨hfirst, hnext⟩ := placeNotes_chain s.faces s.setter.template.noteFace
      (s.setter.template.left + s.setter.template.measure + 8) (notesBeside s.marks.table s.lines slot)
    refine ⟨rfl, rfl, rfl, ⟨Description.bytes_length hd, fun k p hp => ⟨?_, ?_, ?_, ?_⟩,
      fun k g hg => ⟨?_, ?_, ?_, ?_⟩, fun k n hn => ⟨?_, ?_⟩, ?_⟩,
      ⟨_, paintedMarks_order hids r, mem_paintedMarks _ r, lineSegments_eq _ r⟩, rfl, lineNotes_order hids .., hfirst,
      hnext⟩
    · rw [← Nat.add_zero (7 * k), field_descPlacement hd hp (by omega), field_byte (b := p.kind.code) rfl]
      cases p.kind <;> rfl
    · rw [field_descPlacement hd hp (by omega), field_byte (b := byteOf p.face) rfl, byteOf_toNat]
    · rw [field_descPlacement hd hp (by omega), field_three_mod (n := p.code) rfl]
    · rw [field_descPlacement hd hp (by omega), field_two_mod (n := p.pen) rfl]
    · rw [← Nat.add_zero (_ + 6 * k), field_segment hd hg (by omega), field_byte (b := g.style.code) rfl]
      cases g.style <;> rfl
    · have := g.shade.isLt
      rw [field_segment hd hg (by omega), field_byte (b := byteOf g.shade.val) rfl, byteOf_toNat]
      omega
    · rw [field_segment hd hg (by omega), field_two_mod (n := g.x0) rfl]
    · rw [field_segment hd hg (by omega), field_two_mod (n := g.x1) rfl]
    · rw [← Nat.add_zero (_ + 3 * k), field_note hd hn (by omega), field_byte (b := byteOf n.tag) rfl, byteOf_toNat]
    · rw [field_note hd hn (by omega), field_two_mod (n := n.x) rfl]
    · exact (field_descFlags hd).trans (LineFlags.code_toNat _)
  · rw [crc16_append, crcByte_eq, funext crcShift_eq]

end Sys2Proof.Machine
end

section
/-! PROOF. The level of a pixel of a line box, step by step (R18, R29, R30, R99 to R102). -/

namespace Sys2Proof.Machine

/-! ### Lowering to shades -/

/-- A level after the shades of the segments that hold the pixel (R100, R102). -/
def shaded (holds : Segment → Bool) (segments : List Segment) (b : Level) : Level :=
  segments.foldl (fun b g => if holds g then lower b g.shade else b) b

theorem lower_val (a b : Level) : (lower a b).val = min a.val b.val := by
  unfold lower
  split <;> omega

/-- Shading gives the lowest of the level and the shades. -/
theorem shaded_lowest (holds : Segment → Bool) (segments : List Segment) (b : Level) :
    (shaded holds segments b).val ≤ b.val ∧
      (∀ g ∈ segments, holds g = true → (shaded holds segments b).val ≤ g.shade.val) ∧
      ((shaded holds segments b).val = b.val ∨
        ∃ g ∈ segments, holds g = true ∧ (shaded holds segments b).val = g.shade.val) := by
  induction segments generalizing b with
  | nil => exact ⟨Nat.le_refl _, nofun, .inl rfl⟩
  | cons a rest ih =>
    have hcons : shaded holds (a :: rest) b = shaded holds rest (if holds a then lower b a.shade else b) := rfl
    rw [hcons]
    obtain ⟨hle, hall, hor⟩ := ih (if holds a then lower b a.shade else b)
    by_cases ha : holds a = true
    · rw [if_pos ha] at hle hall hor ⊢
      rw [lower_val] at hle hor
      refine ⟨by omega, fun g hg hh => ?_, ?_⟩
      · rcases List.mem_cons.1 hg with rfl | hg
        · omega
        · exact hall g hg hh
      · rcases hor with h | ⟨g, hg, hh, h⟩
        · rcases Nat.le_total b.val a.shade.val with hmin | hmin
          · exact .inl (h.trans (Nat.min_eq_left hmin))
          · exact .inr ⟨a, List.mem_cons_self .., ha, h.trans (Nat.min_eq_right hmin)⟩
        · exact .inr ⟨g, List.mem_cons_of_mem _ hg, hh, h⟩
    · rw [if_neg ha] at hle hall hor ⊢
      refine ⟨hle, fun g hg hh => ?_, hor.imp_right fun ⟨g, hg, hh, h⟩ => ⟨g, List.mem_cons_of_mem _ hg, hh, h⟩⟩
      rcases List.mem_cons.1 hg with rfl | hg
      · exact absurd hh ha
      · exact hall g hg hh

/-- Only the segments that hold the pixel count. -/
theorem shaded_filter {holds keep : Segment → Bool} (segments : List Segment)
    (h : ∀ g, holds g = true → keep g = true) (b : Level) :
    shaded holds (segments.filter keep) b = shaded holds segments b := by
  unfold shaded
  rw [List.foldl_filter]
  congr 1
  funext b g
  by_cases hg : holds g = true
  · rw [if_pos (h g hg)]
  · rw [if_neg hg, ite_self]

theorem shaded_none {holds : Segment → Bool} {segments : List Segment} (h : ∀ g ∈ segments, holds g = false) (b : Level) :
    shaded holds segments b = b := by
  induction segments with
  | nil => rfl
  | cons a rest ih =>
    obtain ⟨ha, h⟩ := List.forall_mem_cons.1 h
    have hcons : shaded holds (a :: rest) b = shaded holds rest (if holds a then lower b a.shade else b) := rfl
    rw [hcons, if_neg (ne_true_of_eq_false ha)]
    exact ih h

/-! ### Ink -/

theorem underInk_val (b c : Level) : (underInk b c).val = b.val - (b.val * c.val + 7) / 15 :=
  Nat.mod_eq_of_lt (Nat.lt_of_le_of_lt (Nat.sub_le ..) b.isLt)

theorem highPixel_val (b : Byte) : (highPixel b).val = b.toNat / 16 :=
  Nat.mod_eq_of_lt (by have := b.isLt; omega)

theorem lowPixel_val (b : Byte) : (lowPixel b).val = b.toNat % 16 := rfl

/-- The pixel is dot (i, j) of a bitmap whose pen is at `pen`. -/
def Glyph.Dot (g : Glyph) (pen baseline x y i j : Nat) : Prop :=
  i < g.width ∧ j < g.height ∧ (x : Int) = pen + g.bearing + i ∧ (y : Int) = baseline - g.top + j

theorem paintGlyph_of_dot (fs : FaceStore) {g : Glyph} {pen baseline x y i j : Nat} (h : g.Dot pen baseline x y i j)
    (b : Level) : paintGlyph fs g pen baseline x y b = underInk b (fs.coverage g i j) := by
  obtain ⟨hi, hj, hx, hy⟩ := h
  have hcol : (x : Int) - (pen : Int) - g.bearing = i := by omega
  have hrow : (y : Int) - (baseline : Int) + g.top = j := by omega
  unfold paintGlyph
  rw [hcol, hrow]
  exact if_pos ⟨by omega, by omega, by omega, by omega⟩

theorem paintGlyph_of_no_dot (fs : FaceStore) {g : Glyph} {pen baseline x y : Nat}
    (h : ∀ i j, ¬ g.Dot pen baseline x y i j) (b : Level) : paintGlyph fs g pen baseline x y b = b := by
  refine if_neg fun ⟨hi, hw, hj, hh⟩ => ?_
  exact h ((x : Int) - (pen : Int) - g.bearing).toNat ((y : Int) - (baseline : Int) + g.top).toNat
    ⟨by omega, by omega, by omega, by omega⟩

theorem FaceStore.coverage_val {fs : FaceStore} {g : Glyph} {run : Nat} (h : g.firstBlock = some run) (i j : Nat) :
    (fs.coverage g i j).val = if (j * g.width + i) % 2 = 0 then
      (fs.pool.read (128 * run + (j * g.width + i) / 2)).toNat / 16
      else (fs.pool.read (128 * run + (j * g.width + i) / 2)).toNat % 16 := by
  simp only [FaceStore.coverage, h]
  split
  · exact highPixel_val _
  · rfl

/-- An entry whose bitmap has a dot holds a run. -/
theorem Glyph.Sound.run_of_dot {g : Glyph} (h : g.Sound) {i j : Nat} (hi : i < g.width) (hj : j < g.height) :
    ∃ run, g.firstBlock = some run := by
  obtain ⟨-, hblocks, hnone, -⟩ := h
  refine Option.ne_none_iff_exists'.1 fun hn => ?_
  have hpos : 0 < g.width * g.height := Nat.mul_pos (by omega) (by omega)
  have hzero := hnone.1 hn
  rw [hblocks, bitmapBlocks, bitmapBytes] at hzero
  omega

/-- How a glyph at `pen` inks the level of a pixel (R101). -/
theorem paintGlyph_inks (fs : FaceStore) {g : Glyph} (hg : g.Sound) (pen baseline x y : Nat) (b : Level) :
    (∀ i j, g.Dot pen baseline x y i j → ∃ run, g.firstBlock = some run ∧
      (paintGlyph fs g pen baseline x y b).val = b.val - (b.val *
        (if (j * g.width + i) % 2 = 0 then (fs.pool.read (128 * run + (j * g.width + i) / 2)).toNat / 16
          else (fs.pool.read (128 * run + (j * g.width + i) / 2)).toNat % 16) + 7) / 15) ∧
    ((∀ i j, ¬ g.Dot pen baseline x y i j) → (paintGlyph fs g pen baseline x y b).val = b.val) := by
  refine ⟨fun i j h => ?_, fun h => congrArg _ (paintGlyph_of_no_dot fs h b)⟩
  obtain ⟨run, hrun⟩ := hg.run_of_dot h.1 h.2.1
  refine ⟨run, hrun, ?_⟩
  rw [paintGlyph_of_dot fs h, underInk_val, FaceStore.coverage_val hrun]

/-! ### Lookups -/

theorem FaceStore.Sound.entry_iff {fs : FaceStore} {tk : Taking} (h : fs.Sound tk) {face code : Nat} {g : Glyph} :
    fs.entry face code = some g ↔ g ∈ fs.directory ∧ g.face = face ∧ g.code = code := by
  refine ⟨FaceStore.entry_some, ?_⟩
  rintro ⟨hg, rfl, rfl⟩
  exact h.entry_eq hg

theorem FaceStore.Sound.fullLookup_iff {fs : FaceStore} {tk : Taking} (h : fs.Sound tk) {face code : Nat} {g : Glyph} :
    fs.fullLookup face code = some g ↔ (g ∈ fs.directory ∧ g.face = face ∧ g.code = code) ∨
      ((∀ k, ¬ (k ∈ fs.directory ∧ k.face = face ∧ k.code = code)) ∧
        (g ∈ fs.directory ∧ g.face = face ∧ g.code = (fs.face face).missingCode)) := by
  unfold FaceStore.fullLookup
  cases he : fs.entry face code with
  | some k =>
    have hk := FaceStore.entry_some he
    refine ⟨fun hg => .inl (by rw [← Option.some.inj hg]; exact hk), fun hg => ?_⟩
    rcases hg with hg | ⟨hnone, -⟩
    · rw [← h.entry_iff, he] at hg
      exact hg
    · exact absurd hk (hnone k)
  | none =>
    have hnone : ∀ k, ¬ (k ∈ fs.directory ∧ k.face = face ∧ k.code = code) := fun k hk => by
      rw [← h.entry_iff, he] at hk
      cases hk
    refine h.entry_iff.trans ⟨fun hg => .inr ⟨hnone, hg⟩, fun hg => ?_⟩
    rcases hg with hg | ⟨-, hg⟩
    · exact absurd hg (hnone g)
    · exact hg

/-- The glyph that a placement of a description paints (R99). -/
theorem DescPlacement.glyph_iff {fs : FaceStore} {tk : Taking} (h : fs.Sound tk) (p : DescPlacement) (g : Glyph) :
    p.glyph fs = some g ↔ (p.kind = .glyph ∨ p.kind = .hyphen) ∧ (fs.face p.face).state = .ready ∧
      ((g ∈ fs.directory ∧ g.face = p.face ∧ g.code = p.code) ∨
        ((∀ k, ¬ (k ∈ fs.directory ∧ k.face = p.face ∧ k.code = p.code)) ∧
          (g ∈ fs.directory ∧ g.face = p.face ∧ g.code = (fs.face p.face).missingCode))) := by
  unfold DescPlacement.glyph
  split
  · next hk => exact h.fullLookup_iff.trans ⟨fun hg => ⟨hk.1, hk.2, hg⟩, fun hg => hg.2.2⟩
  · next hk => exact ⟨nofun, fun hg => absurd ⟨hg.1, hg.2.1⟩ hk⟩

/-! ### The steps of a box pixel -/

section
variable (fs : FaceStore) (t : Template) (top x y : Nat)

/-- The column is in the text clip. -/
def Template.inText (t : Template) (x : Nat) : Bool := decide (x < t.left + t.measure)

/-- The segment fills the column. -/
def Segment.fillsAt (g : Segment) (t : Template) (x : Nat) : Bool :=
  t.inText x && g.style == .fill && g.x0 ≤ x && x ≤ g.x1

/-- The level after one more placement. -/
def inkText (b : Level) (p : DescPlacement) : Level :=
  match p.glyph fs with
  | some g => if t.inText x then paintGlyph fs g p.pen (top + t.baseline) x y b else b
  | none => b

/-- The level after one more note. -/
def inkNote (b : Level) (n : DescNote) : Level :=
  match fs.exactLookup t.noteFace (0xE000 + n.tag) with
  | some g => if t.inText x then b else paintGlyph fs g n.x (top + t.baseline) x y b
  | none => b

theorem boxLevel_eq (d : Description) : boxLevel fs t d top x y =
    d.notes.foldl (inkNote fs t top x y)
      (shaded (fun g => t.inText x && g.rules t top x y) d.segments
        (d.placements.foldl (inkText fs t top x y)
          (shaded (fun g => g.fillsAt t x) d.segments white))) := rfl

end

theorem Segment.fillsAt_iff (g : Segment) (t : Template) (x : Nat) :
    g.fillsAt t x = true ↔ (x < t.left + t.measure ∧ g.x0 ≤ x ∧ x ≤ g.x1) ∧ g.style = .fill := by
  simp only [Segment.fillsAt, Template.inText, Bool.and_eq_true, decide_eq_true_eq, beq_iff_eq]
  tauto

theorem Segment.rules_iff (g : Segment) (t : Template) {top x y : Nat} (h : y < top + t.pitch) :
    g.rules t top x y = true ↔ (g.x0 ≤ x ∧ x ≤ g.x1) ∧
      ((g.style = .underline ∧ (y = top + t.baseline + 2 ∨ y = top + t.baseline + 3)) ∨
       (g.style = .dotted ∧ (y = top + t.baseline + 2 ∨ y = top + t.baseline + 3) ∧ x % 2 = 0) ∨
       (g.style = .box ∧ (x = g.x0 ∨ x = g.x1 ∨ y = top ∨ y + 1 = top + t.pitch))) := by
  have hlast : y = top + t.pitch - 1 ↔ y + 1 = top + t.pitch := by omega
  unfold Segment.rules
  cases g.style <;> simp only [Bool.and_eq_true, Bool.or_eq_true, decide_eq_true_eq, beq_iff_eq, hlast, reduceCtorEq,
    false_and, true_and, or_false, false_or, Bool.false_eq_true, and_false] <;> tauto

theorem fill_rules {g : Segment} (h : g.style = .fill) (t : Template) (top x y : Nat) : g.rules t top x y = false := by
  simp [Segment.rules, h]

/-- The levels of a description's fills alone: no rule is of a FILL segment. -/
theorem boxLevel_fills (fs : FaceStore) (t : Template) (d : Description) (ps : List DescPlacement) (top x y : Nat) :
    boxLevel fs t { d with segments := d.segments.filter fun g => g.style == .fill, placements := ps, notes := [] } top x y =
      ps.foldl (inkText fs t top x y) (shaded (fun g => g.fillsAt t x) d.segments white) := by
  rw [boxLevel_eq]
  dsimp only
  rw [List.foldl_nil, shaded_filter (holds := fun g => g.fillsAt t x) (keep := fun g => g.style == .fill) d.segments
    fun g hg => beq_iff_eq.2 ((g.fillsAt_iff t x).1 hg).2]
  refine shaded_none (fun g hg => ?_) _
  rw [fill_rules (by simpa using (List.mem_filter.1 hg).2), Bool.and_false]

theorem inkText_of_none {fs : FaceStore} {t : Template} {top x y : Nat} {p : DescPlacement}
    (h : ∀ g, ¬ (x < t.left + t.measure ∧ p.glyph fs = some g)) (b : Level) : inkText fs t top x y b p = b := by
  unfold inkText
  split
  · next g hg => exact if_neg fun hin => h g ⟨of_decide_eq_true hin, hg⟩
  · rfl

theorem inkText_of_some {fs : FaceStore} {t : Template} {top x y : Nat} {p : DescPlacement} {g : Glyph}
    (hin : x < t.left + t.measure) (h : p.glyph fs = some g) (b : Level) :
    inkText fs t top x y b p = paintGlyph fs g p.pen (top + t.baseline) x y b := by
  unfold inkText
  rw [h]
  exact if_pos (decide_eq_true hin)

theorem inkNote_of_none {fs : FaceStore} {t : Template} {top x y : Nat} {n : DescNote}
    (h : ∀ g, ¬ (¬ x < t.left + t.measure ∧ fs.exactLookup t.noteFace (0xE000 + n.tag) = some g)) (b : Level) :
    inkNote fs t top x y b n = b := by
  unfold inkNote
  split
  · next g hg => exact if_pos (by by_contra hin; exact h g ⟨fun hlt => hin (decide_eq_true hlt), hg⟩)
  · rfl

theorem inkNote_of_some {fs : FaceStore} {t : Template} {top x y : Nat} {n : DescNote} {g : Glyph}
    (hin : ¬ x < t.left + t.measure) (h : fs.exactLookup t.noteFace (0xE000 + n.tag) = some g) (b : Level) :
    inkNote fs t top x y b n = paintGlyph fs g n.x (top + t.baseline) x y b := by
  unfold inkNote
  rw [h]
  exact if_neg fun hc => hin (of_decide_eq_true hc)

/-- Settles O46: the box's level is its fills, then its placements, its rules and its notes, each one step. -/
theorem boxPixelsFollowThePaintRules : Obligations.BoxPixelsFollowThePaintRules := by
  intro s d top x y t level inText across lowest rule holds finds dot inks paints draws fills hsound _ h1 _
  have hs := (State.facesSound_iff s).1 hsound
  have glyphSound {face code : Nat} {g : Glyph} (h : holds face code g) : g.Sound := hs.entries g h.1
  have hfills (ps : List DescPlacement) : boxLevel s.faces t { fills with placements := ps } top x y =
      ps.foldl (inkText s.faces t top x y) (shaded (fun g => g.fillsAt t x) d.segments white) :=
    boxLevel_fills s.faces t d ps top x y
  have hpaints (p : DescPlacement) (g : Glyph) : paints p g ↔ inText ∧ p.glyph s.faces = some g := by
    rw [DescPlacement.glyph_iff hs]
  have hdraws (n : DescNote) (g : Glyph) :
      draws n g ↔ ¬ inText ∧ s.faces.exactLookup t.noteFace (0xE000 + n.tag) = some g := by
    rw [hs.exactLookup_iff]
    rfl
  refine ⟨?_, fun p => ?_, ?_, fun n => ?_⟩
  · have hlow := shaded_lowest (fun g => g.fillsAt t x) d.segments white
    have hlevel := hfills []
    simp only [Segment.fillsAt_iff] at hlow
    simp only [level, hlevel]
    exact hlow
  · have hstep : boxLevel s.faces t { fills with placements := d.placements ++ [p] } top x y =
        inkText s.faces t top x y (boxLevel s.faces t fills top x y) p := by
      rw [hfills, List.foldl_append]
      exact congrArg (fun b => inkText s.faces t top x y b p) (hfills d.placements).symm
    simp only [level, hstep]
    refine ⟨fun g hg => ?_, fun hnone => ?_⟩
    · obtain ⟨hin, hglyph⟩ := (hpaints p g).1 hg
      rw [inkText_of_some hin hglyph]
      refine paintGlyph_inks s.faces ?_ ..
      rcases hg.2.2.2 with hg | ⟨-, hg⟩ <;> exact glyphSound hg
    · exact congrArg _ (inkText_of_none (fun g hg => hnone g ((hpaints p g).2 hg)) _)
  · have hlow := shaded_lowest (fun g => t.inText x && g.rules t top x y) d.segments
      (boxLevel s.faces t fills top x y)
    have hlevel : boxLevel s.faces t { d with notes := [] } top x y =
        shaded (fun g => t.inText x && g.rules t top x y) d.segments (boxLevel s.faces t fills top x y) := by
      rw [boxLevel_eq]
      exact congrArg _ (hfills d.placements).symm
    have hrule (g : Segment) : (t.inText x && g.rules t top x y) = true ↔ rule g := by
      rw [Bool.and_eq_true, g.rules_iff t h1, Template.inText, decide_eq_true_eq]
      exact ⟨fun ⟨a, b, c⟩ => ⟨⟨a, b⟩, c⟩, fun ⟨⟨a, b⟩, c⟩ => ⟨a, b, c⟩⟩
    simp only [hrule] at hlow
    simp only [level, hlevel]
    exact hlow
  · have hstep : boxLevel s.faces t { d with notes := d.notes ++ [n] } top x y =
        inkNote s.faces t top x y (boxLevel s.faces t d top x y) n := by
      rw [boxLevel_eq, boxLevel_eq, List.foldl_append]
      rfl
    simp only [level, hstep]
    refine ⟨fun g hg => ?_, fun hnone => ?_⟩
    · obtain ⟨hin, hglyph⟩ := (hdraws n g).1 hg
      rw [inkNote_of_some hin hglyph]
      exact paintGlyph_inks s.faces (glyphSound hg.2.2) ..
    · exact congrArg _ (inkNote_of_none (fun g hg => hnone g ((hdraws n g).2 hg)) _)

end Sys2Proof.Machine
end

section
/-! PROOF. One grant of the arbiter (R4, R99, R107, R112), and the rows that grant every write that waits: how many grants are
allowed does not matter, once they are enough. -/

namespace Sys2Proof.Machine

/-! ### Whose write is granted -/

/-- The port fills its window. -/
def ImagePort.Fills (p : ImagePort) : Prop := ∃ v left, p.state = .filling v left

/-- A fill under way has a write left. -/
def ImagePort.Waits (p : ImagePort) : Prop := ∀ v left, p.state = .filling v left → 1 ≤ left

theorem State.PortSound.waits {s : State} (h : s.PortSound) : s.port.Waits := fun v left hf => (h.2 v left hf).1

theorem State.grantOne_of_renderer {s : State} {j : RenderJob} (hj : s.renderer.job = some j)
    (h : ¬ s.port.Fills ∨ s.image.turn = .renderer) : s.grantOne = s.grantRenderer j := by
  cases hp : s.port.state with
  | idle => simp only [State.grantOne, hj, hp]
  | writing => simp only [State.grantOne, hj, hp]
  | filling v left =>
    simp only [State.grantOne, hj, hp]
    exact if_pos (h.resolve_left fun hn => hn ⟨v, left, hp⟩)

theorem State.grantOne_of_fill {s : State} {v : Level} {left : Nat} (hf : s.port.state = .filling v left)
    (h : s.renderer.job = none ∨ s.image.turn = .port) : s.grantOne = s.grantFill v left := by
  cases hj : s.renderer.job with
  | none => simp only [State.grantOne, hj, hf]
  | some j =>
    have hturn : ¬ s.image.turn = .renderer := by
      rw [h.resolve_left (by simp [hj])]
      decide
    simp only [State.grantOne, hj, hf, if_neg hturn]

/-! ### What a grant leaves behind -/

theorem State.renderDone_eq (j : RenderJob) (s : State) : s.renderDone j =
    (({ s with lines := s.lines.setRendered j.slot j.description.signature j.description.length } : State).post
      ⟨s.setter.template.boxRect ((s.setter.template.boxTop j.slot).getD 0), s.sched.settings.autoMode j.cause, .render,
        false⟩).endRender := rfl

theorem State.endRender_renderer (s : State) : s.endRender.renderer = ⟨s.renderer.list, none⟩ := by
  rw [State.endRender_eq]
  split <;> rfl

theorem State.renderDone_renderer (j : RenderJob) (s : State) :
    (s.renderDone j).renderer = ⟨s.renderer.list, none⟩ := by
  rw [State.renderDone_eq, State.endRender_renderer, (State.post_panelOnly _ _).renderer]

theorem State.grantRenderer_port (j : RenderJob) (s : State) : (s.grantRenderer j).port = s.port :=
  (State.grantRenderer_rest j s).2

theorem State.grantRenderer_of_last {j : RenderJob} {s : State} (h : s.setter.template.boxPixels ≤ j.written + 1) :
    s.grantRenderer j =
      State.renderDone j.next { s.rendererPixel j with renderer := { s.renderer with job := some j.next } } :=
  (s.grantRenderer_eq j).trans (if_pos h)

theorem State.grantRenderer_of_more {j : RenderJob} {s : State} (h : j.written + 1 < s.setter.template.boxPixels) :
    s.grantRenderer j = { s.rendererPixel j with renderer := { s.renderer with job := some j.next } } :=
  (s.grantRenderer_eq j).trans (if_neg (Nat.not_le.2 h))

theorem State.grantFill_eq (v : Level) (left : Nat) (s : State) : s.grantFill v left =
    if left ≤ 1 then (s.portPixel v).endPortWork
    else { s.portPixel v with port := { (s.portPixel v).port with state := .filling v (left - 1) } } := rfl

/-- A pixel of the port changes the target plane, the turn and the write position alone. -/
theorem State.portPixel_rest (v : Level) (s : State) :
    (s.portPixel v).renderer = s.renderer ∧ (s.portPixel v).setter = s.setter ∧ (s.portPixel v).faces = s.faces ∧
      (s.portPixel v).lines = s.lines ∧ (s.portPixel v).port.window = s.port.window := by
  unfold State.portPixel
  split <;> exact ⟨rfl, rfl, rfl, rfl, rfl⟩

theorem State.endPortWork_port (s : State) : s.endPortWork.port = { s.port with state := .idle } :=
  s.endPortWork_eq.1.port

/-- A grant to a fill leaves the renderer, the line table, the setter and the faces, and the window. -/
theorem State.grantFill_rest (v : Level) (left : Nat) (s : State) :
    (s.grantFill v left).renderer = s.renderer ∧ (s.grantFill v left).setter = s.setter ∧
      (s.grantFill v left).faces = s.faces ∧ (s.grantFill v left).lines = s.lines ∧
      (s.grantFill v left).port.window = s.port.window ∧
      (s.grantFill v left).image.target = (s.portPixel v).image.target := by
  obtain ⟨h1, h2, h3, h4, h5⟩ := s.portPixel_rest v
  rw [State.grantFill_eq]
  split
  · have h := (s.portPixel v).endPortWork_eq.1
    refine ⟨h.renderer.trans h1, h.setter.trans h2, h.faces.trans h3, h.lines.trans h4, ?_, h.target⟩
    rw [State.endPortWork_port]
    exact h5
  · exact ⟨h1, h2, h3, h4, h5, rfl⟩

theorem State.grantFill_state (v : Level) (left : Nat) (s : State) :
    (s.grantFill v left).port.state = if left ≤ 1 then .idle else .filling v (left - 1) := by
  rw [State.grantFill_eq]
  split
  · rw [State.endPortWork_port]
  · rfl

theorem State.portPixel_port {v : Level} {s : State} (h : s.port.position < s.port.size) :
    (s.portPixel v).port = { s.port with position := s.port.position + 1 } := by
  rw [State.portPixel_eq, if_pos h]

theorem State.grantFill_position {v : Level} {left : Nat} {s : State} (h : s.port.position < s.port.size) :
    (s.grantFill v left).port =
      { s.port with
        position := s.port.position + 1
        state := if left ≤ 1 then .idle else .filling v (left - 1) } := by
  rw [State.grantFill_eq]
  split
  · rw [State.endPortWork_port, State.portPixel_port h]
  · rw [State.portPixel_port h]

/-! ### Enough grants -/

/-- The writes of a render under way that wait. -/
def State.boxWaits (s : State) : Nat :=
  match s.renderer.job with
  | some j => s.setter.template.boxPixels - j.written + 1
  | none => 0

/-- The writes of a fill under way that wait. -/
def State.fillWaits (s : State) : Nat :=
  match s.port.state with
  | .filling _ left => left
  | _ => 0

theorem State.waitingWrites_eq (s : State) : s.waitingWrites = s.boxWaits + s.fillWaits := rfl

theorem State.boxWaits_of_none {s : State} (h : s.renderer.job = none) : s.boxWaits = 0 := by
  simp only [State.boxWaits, h]

theorem State.boxWaits_of_some {s : State} {j : RenderJob} (h : s.renderer.job = some j) :
    s.boxWaits = s.setter.template.boxPixels - j.written + 1 := by
  simp only [State.boxWaits, h]

theorem State.fillWaits_of_fill {s : State} {v : Level} {left : Nat} (h : s.port.state = .filling v left) :
    s.fillWaits = left := by
  simp only [State.fillWaits, h]

theorem State.boxWaits_grantRenderer {s : State} {j : RenderJob} (hj : s.renderer.job = some j) :
    (s.grantRenderer j).boxWaits < s.boxWaits := by
  rw [State.boxWaits_of_some hj]
  rcases Nat.lt_or_ge (j.written + 1) s.setter.template.boxPixels with hmore | hlast
  · rw [State.grantRenderer_of_more hmore, State.boxWaits_of_some (j := j.next) rfl]
    have hnext : j.next.written = j.written + 1 := rfl
    have hbox : (s.rendererPixel j).setter.template.boxPixels = s.setter.template.boxPixels := rfl
    simp only [hnext, hbox]
    omega
  · rw [State.boxWaits_of_none]
    · exact Nat.succ_pos _
    · rw [State.grantRenderer_of_last hlast, State.renderDone_renderer]

theorem State.fillWaits_grantFill {s : State} {v : Level} {left : Nat} (hf : s.port.state = .filling v left)
    (h : 1 ≤ left) : (s.grantFill v left).fillWaits < s.fillWaits := by
  rw [State.fillWaits_of_fill hf, State.fillWaits, State.grantFill_state]
  split
  · next hlast =>
    split at hlast
    · cases hlast
    · cases hlast
      omega
  · omega

/-- Every grant leaves fewer writes waiting. -/
theorem State.waitingWrites_grantOne {s : State} (hw : s.port.Waits) (h : s.renderer.job ≠ none ∨ s.port.Fills) :
    s.grantOne.waitingWrites < s.waitingWrites := by
  rw [State.waitingWrites_eq, State.waitingWrites_eq]
  by_cases hr : ∃ j, s.renderer.job = some j ∧ (¬ s.port.Fills ∨ s.image.turn = .renderer)
  · obtain ⟨j, hj, hturn⟩ := hr
    rw [State.grantOne_of_renderer hj hturn]
    have hfill : (s.grantRenderer j).fillWaits = s.fillWaits := by
      rw [State.fillWaits, State.grantRenderer_port, State.fillWaits]
    have := State.boxWaits_grantRenderer hj
    omega
  · have hfills : s.port.Fills := by
      by_contra hn
      obtain ⟨j, hj⟩ := Option.ne_none_iff_exists'.1 (h.resolve_right hn)
      exact hr ⟨j, hj, .inl hn⟩
    obtain ⟨v, left, hf⟩ := hfills
    have hturn : s.renderer.job = none ∨ s.image.turn = .port := by
      cases hj : s.renderer.job with
      | none => exact .inl rfl
      | some j =>
        right
        cases ht : s.image.turn with
        | port => rfl
        | renderer => exact absurd ⟨j, hj, .inr ht⟩ hr
    rw [State.grantOne_of_fill hf hturn]
    obtain ⟨h1, h2, -⟩ := s.grantFill_rest v left
    have hbox : (s.grantFill v left).boxWaits = s.boxWaits := by
      rw [State.boxWaits, h1, h2, State.boxWaits]
    have := State.fillWaits_grantFill hf (hw v left hf)
    omega

theorem State.grantOne_waits {s : State} (hw : s.port.Waits) : s.grantOne.port.Waits := by
  have renderer (j : RenderJob) : (s.grantRenderer j).port.Waits := by
    rw [State.grantRenderer_port]
    exact hw
  have fill (v : Level) (left : Nat) : (s.grantFill v left).port.Waits := fun w k hk => by
    rw [State.grantFill_state] at hk
    split at hk
    · cases hk
    · cases hk
      omega
  unfold State.grantOne
  split
  · split
    · exact renderer _
    · exact fill _ _
  · exact renderer _
  · exact fill _ _
  · exact hw

/-- Writes are granted, at most `n` of them, until `stop`. -/
def grantUntil (stop : State → Bool) : Nat → State → State
  | 0, s => s
  | n + 1, s => if stop s then s else grantUntil stop n s.grantOne

theorem grantUntil_of_stop {stop : State → Bool} {s : State} (h : stop s = true) (n : Nat) :
    grantUntil stop n s = s := by
  cases n with
  | zero => rfl
  | succ n => exact if_pos h

theorem grantUntilRendered_eq (n : Nat) (s : State) :
    grantUntilRendered n s = grantUntil (fun u => u.renderer.job.isNone) n s := by
  induction n generalizing s with
  | zero => rfl
  | succ n ih => rw [grantUntilRendered, ih, grantUntil]

theorem grantUntilFilled_eq (n : Nat) (s : State) :
    grantUntilFilled n s = grantUntil (fun u => !u.port.isFilling) n s := by
  induction n generalizing s with
  | zero => rfl
  | succ n ih =>
    rw [grantUntilFilled, ih, grantUntil]
    cases s.port.isFilling <;> rfl

/-- A stop that leaves no write ungranted but with one waiting. -/
def StopsInTime (stop : State → Bool) : Prop := ∀ s, stop s = false → s.renderer.job ≠ none ∨ s.port.Fills

theorem StopsInTime.waiting {stop : State → Bool} (h : StopsInTime stop) {s : State} (hw : s.port.Waits)
    (hs : stop s = false) : 1 ≤ s.waitingWrites :=
  Nat.one_le_of_lt (State.waitingWrites_grantOne hw (h s hs))

/-- As many grants as there are writes waiting are enough. -/
theorem grantUntil_enough {stop : State → Bool} (h : StopsInTime stop) {n m : Nat} {s : State} (hw : s.port.Waits)
    (hn : s.waitingWrites ≤ n) (hm : s.waitingWrites ≤ m) : grantUntil stop n s = grantUntil stop m s := by
  induction n generalizing m s with
  | zero =>
    cases hs : stop s with
    | true => rw [grantUntil_of_stop hs, grantUntil_of_stop hs]
    | false =>
      have := h.waiting hw hs
      omega
  | succ n ih =>
    cases hs : stop s with
    | true => rw [grantUntil_of_stop hs, grantUntil_of_stop hs]
    | false =>
      have hone := h.waiting hw hs
      have hless := State.waitingWrites_grantOne hw (h s hs)
      obtain ⟨m, rfl⟩ : ∃ k, m = k + 1 := ⟨m - 1, by omega⟩
      rw [grantUntil, grantUntil, hs]
      exact ih (State.grantOne_waits hw) (by omega) (by omega)

/-- The row that grants every write makes one grant and goes on as from there. -/
theorem grantUntil_step {stop : State → Bool} (h : StopsInTime stop) {s : State} (hw : s.port.Waits)
    (hs : stop s = false) :
    grantUntil stop s.waitingWrites s = grantUntil stop s.grantOne.waitingWrites s.grantOne := by
  have hone := h.waiting hw hs
  have hless := State.waitingWrites_grantOne hw (h s hs)
  obtain ⟨n, hn⟩ : ∃ k, s.waitingWrites = k + 1 := ⟨s.waitingWrites - 1, by omega⟩
  rw [hn, grantUntil, hs]
  exact grantUntil_enough h (State.grantOne_waits hw) (by omega) (Nat.le_refl _)

theorem stopsInTime_rendered : StopsInTime fun s => s.renderer.job.isNone := fun s hs => .inl (by
  intro hn
  simp [hn] at hs)

theorem stopsInTime_filled : StopsInTime fun s => !s.port.isFilling := fun s hs =>
  .inr (s.port.isFilling_iff.1 (by simpa using hs))

theorem exec_renderDone_grant {s : State} (hw : s.port.Waits) (h : s.renderer.job ≠ none) :
    exec .renderDone s = exec .renderDone s.grantOne := by
  refine congrArg Host.Outcome.next ?_
  rw [grantUntilRendered_eq, grantUntilRendered_eq]
  exact grantUntil_step stopsInTime_rendered hw (Option.isNone_eq_false_iff.2 (Option.isSome_iff_ne_none.2 h))

theorem exec_renderDone_of_none {s : State} (h : s.renderer.job = none) : exec .renderDone s = .next s := by
  refine congrArg Host.Outcome.next ?_
  rw [grantUntilRendered_eq]
  exact grantUntil_of_stop (by rw [h]; rfl) _

theorem exec_fillComplete_grant {s : State} (hw : s.port.Waits) (h : s.port.Fills) :
    exec .fillComplete s = exec .fillComplete s.grantOne := by
  refine congrArg Host.Outcome.next ?_
  rw [grantUntilFilled_eq, grantUntilFilled_eq]
  exact grantUntil_step stopsInTime_filled hw (by rw [s.port.isFilling_iff.2 h]; rfl)

theorem exec_fillComplete_of_not {s : State} (h : ¬ s.port.Fills) : exec .fillComplete s = .next s := by
  refine congrArg Host.Outcome.next ?_
  rw [grantUntilFilled_eq]
  refine grantUntil_of_stop ?_ _
  rw [Bool.not_eq_true', Bool.eq_false_iff]
  exact mt s.port.isFilling_iff.1 h

theorem exec_arbiterWriteGrant (s : State) : exec .arbiterWriteGrant s = .next s.grantOne := rfl

/-- The grant of a render's last write is its render done. -/
theorem exec_grant_of_lastRender {s : State} {j : RenderJob} (hw : s.port.Waits) (hj : s.renderer.job = some j)
    (hturn : ¬ s.port.Fills ∨ s.image.turn = .renderer) (hlast : s.setter.template.boxPixels ≤ j.written + 1) :
    exec .arbiterWriteGrant s = exec .renderDone s := by
  rw [exec_renderDone_grant hw (by simp [hj]), exec_arbiterWriteGrant, exec_renderDone_of_none]
  rw [State.grantOne_of_renderer hj hturn, State.grantRenderer_of_last hlast, State.renderDone_renderer]

/-- The grant of a fill's last write is the fill complete. -/
theorem exec_grant_of_lastFill {s : State} {v : Level} (hw : s.port.Waits) (hf : s.port.state = .filling v 1)
    (hturn : s.renderer.job = none ∨ s.image.turn = .port) :
    exec .arbiterWriteGrant s = exec .fillComplete s := by
  rw [exec_fillComplete_grant hw ⟨v, 1, hf⟩, exec_arbiterWriteGrant, exec_fillComplete_of_not]
  rw [State.grantOne_of_fill hf hturn]
  rintro ⟨w, k, hk⟩
  rw [State.grantFill_state] at hk
  cases hk

/-! ### The pixels of a grant -/

/-- A write of the renderer changes the next pixel of its box alone. -/
theorem State.rendererPixel_level {s : State} (hwf : s.image.target.wf = true) (j : RenderJob) {x y : Nat}
    (hx : x < 1248) : (s.rendererPixel j).image.target.level x y =
      if x = j.written % 1248 ∧ y = (s.setter.template.boxTop j.slot).getD 0 + j.written / 1248 then
        boxLevel s.faces s.setter.template j.description ((s.setter.template.boxTop j.slot).getD 0)
          (j.written % 1248) ((s.setter.template.boxTop j.slot).getD 0 + j.written / 1248)
      else s.image.target.level x y :=
  Plane.level_setPixel _ _ _ _ _ _ hwf (Nat.mod_lt _ (by decide)) hx

theorem ImagePort.pixel_lt {p : ImagePort} (h : p.window.onPanel) (k : Nat) :
    p.window.x0 + k % (p.window.x1 - p.window.x0 + 1) < 1248 := by
  obtain ⟨h0, h1, -⟩ := h
  have hmod : k % (p.window.x1 - p.window.x0 + 1) < p.window.x1 - p.window.x0 + 1 := Nat.mod_lt k (Nat.succ_pos _)
  omega

/-- A write of the port changes the pixel at its write position alone. -/
theorem State.portWrite_level {s : State} (hwf : s.image.target.wf = true) (hon : s.port.window.onPanel) (v : Level)
    {x y : Nat} (hx : x < 1248) : (s.portWrite v).image.target.level x y =
      if x = s.port.window.x0 + s.port.position % (s.port.window.x1 - s.port.window.x0 + 1) ∧
        y = s.port.window.y0 + s.port.position / (s.port.window.x1 - s.port.window.x0 + 1) then v
      else s.image.target.level x y :=
  Plane.level_setPixel _ _ _ _ _ _ hwf (ImagePort.pixel_lt hon _) hx

/-- Settles O47: whose write is granted, which pixel it changes, and the last write of a box or a fill. -/
theorem arbiterGrantsOneWrite : Obligations.ArbiterGrantsOneWrite := by
  intro s hcanon hrects hport
  obtain ⟨hwf, -⟩ := hcanon
  obtain ⟨-, -, hon, -⟩ := hrects
  have hw := hport.waits
  refine ⟨fun hj hf => congrArg _ (State.grantOne_of_idle hj (Bool.eq_false_iff.2 (mt s.port.isFilling_iff.1 hf))),
    fun j hj hturn => ⟨fun hmore => ⟨(s.rendererPixel j).image.target, ?_, fun x y hx => ?_⟩, fun hlast => ?_⟩,
    fun v left hf hturn => ⟨fun hmore => ⟨(s.portWrite v).image.target, ?_, fun x y hx => ?_⟩, fun hlast => ?_⟩⟩
  · exact congrArg _ ((State.grantOne_of_renderer hj hturn).trans (State.grantRenderer_of_more hmore))
  · exact State.rendererPixel_level hwf j hx
  · exact exec_grant_of_lastRender hw hj hturn hlast
  · obtain ⟨-, hroom, -⟩ := hport.2 v left hf
    have hlt : s.port.position < s.port.size := by omega
    refine congrArg _ ((State.grantOne_of_fill hf hturn).trans ?_)
    rw [State.grantFill_eq, if_neg (by omega), State.portPixel_eq, if_pos hlt]
    rfl
  · exact State.portWrite_level hwf hon v hx
  · rw [hlast] at hf
    exact exec_grant_of_lastFill hw hf hturn

end Sys2Proof.Machine
end

section
/-! PROOF. Render done (R93, R99, R103): the box painted grant by grant, then its signature stored and its request posted. -/

namespace Sys2Proof.Machine

/-! ### The pixels of a box -/

/-- The target plane holds, past the writes that are done, the levels of the job's box, and elsewhere those of `s`. -/
def State.PaintedAt (s : State) (j : RenderJob) (top : Nat) (target : Plane) (x y : Nat) : Prop :=
  target.level x y =
    if top ≤ y ∧ y < top + s.setter.template.pitch ∧ j.written ≤ 1248 * (y - top) + x then
      boxLevel s.faces s.setter.template j.description top x y
    else s.image.target.level x y

/-- What a box has stored with its slot once it is rendered. -/
def StoresJob (j : RenderJob) (before after : LineTable) : Prop :=
  ∀ slot, after.slot slot =
    if slot = j.slot then { before.slot slot with
      signature := some (crc16 j.description.bytes), length := some j.description.bytes.length }
    else before.slot slot

theorem setRendered_stores {lines : LineTable} {j : RenderJob} (h : j.slot < 210) :
    StoresJob j lines (lines.setRendered j.slot j.description.signature j.description.length) := by
  intro slot
  by_cases hs : slot = j.slot
  · rw [if_pos hs, hs]
    exact look_put_self _ _ _ _ h
  · rw [if_neg hs]
    exact look_put_other _ _ _ _ _ hs

/-- The pixel of write k of a box. -/
theorem boxPixel_iff {top x y k : Nat} (hx : x < 1248) :
    (x = k % 1248 ∧ y = top + k / 1248) ↔ top ≤ y ∧ 1248 * (y - top) + x = k := by
  omega

section
variable {s : State} {j : RenderJob} {top : Nat}

theorem State.rendererPixel_at (hwf : s.image.target.wf = true) (htop : s.setter.template.boxTop j.slot = some top)
    {x y : Nat} (hx : x < 1248) : (s.rendererPixel j).image.target.level x y =
      if top ≤ y ∧ 1248 * (y - top) + x = j.written then boxLevel s.faces s.setter.template j.description top x y
      else s.image.target.level x y := by
  have hbox := boxPixel_iff (top := top) (y := y) (k := j.written) hx
  rw [State.rendererPixel_level hwf j hx, htop, Option.getD_some]
  by_cases hp : x = j.written % 1248 ∧ y = top + j.written / 1248
  · rw [if_pos hp, if_pos (hbox.1 hp), ← hp.1, ← hp.2]
  · rw [if_neg hp, if_neg (mt hbox.2 hp)]

/-- The last write of a box completes it. -/
theorem State.paintedAt_last (hwf : s.image.target.wf = true) (htop : s.setter.template.boxTop j.slot = some top)
    (hwritten : j.written < 1248 * s.setter.template.pitch) (hlast : 1248 * s.setter.template.pitch ≤ j.written + 1)
    {x y : Nat} (hx : x < 1248) : s.PaintedAt j top (s.rendererPixel j).image.target x y := by
  unfold State.PaintedAt
  rw [State.rendererPixel_at hwf htop hx]
  by_cases hp : top ≤ y ∧ 1248 * (y - top) + x = j.written
  · rw [if_pos hp, if_pos ⟨hp.1, by omega, by omega⟩]
  · rw [if_neg hp, if_neg fun hc => hp ⟨hc.1, by omega⟩]

/-- What is painted after a write of the renderer, with that write, is painted from before it. -/
theorem State.paintedAt_step (hwf : s.image.target.wf = true) (htop : s.setter.template.boxTop j.slot = some top)
    (hmore : j.written + 1 < 1248 * s.setter.template.pitch) {target : Plane} {x y : Nat} (hx : x < 1248)
    (h : (s.rendererPixel j).PaintedAt j.next top target x y) : s.PaintedAt j top target x y := by
  have hnext : j.next.written = j.written + 1 := rfl
  unfold State.PaintedAt at h ⊢
  rw [State.rendererPixel_at hwf htop hx, hnext] at h
  rw [h]
  by_cases hp : top ≤ y ∧ 1248 * (y - top) + x = j.written
  · rw [if_pos hp, if_neg (by omega), if_pos ⟨hp.1, by omega, by omega⟩]
  · rw [if_neg hp]
    by_cases hin : top ≤ y ∧ y < top + s.setter.template.pitch ∧ j.written ≤ 1248 * (y - top) + x
    · rw [if_pos hin, if_pos ⟨hin.1, hin.2.1, by omega⟩]
      rfl
    · rw [if_neg hin, if_neg fun hc => hin ⟨hc.1, hc.2.1, by omega⟩]

theorem State.paintedAt_congr {u : State} {target : Plane} {x y : Nat} (hfaces : u.faces = s.faces)
    (hsetter : u.setter = s.setter) (hpixel : u.image.target.level x y = s.image.target.level x y)
    (h : u.PaintedAt j top target x y) : s.PaintedAt j top target x y := by
  unfold State.PaintedAt at h ⊢
  rw [h, hfaces, hsetter, hpixel]

end

/-! ### Render done as a course of grants -/

/-- The state from which the last write of a box is render done. -/
structure State.Renders (s : State) (j : RenderJob) (top : Nat) : Prop where
  job : s.renderer.job = some j
  top : s.setter.template.boxTop j.slot = some top
  written : j.written < 1248 * s.setter.template.pitch
  target : s.image.target.wf = true
  window : s.port.window.onPanel
  waits : s.port.Waits

theorem State.Renders.after_grantRenderer {s : State} {j : RenderJob} {top : Nat} (h : s.Renders j top)
    (hmore : j.written + 1 < 1248 * s.setter.template.pitch) : (s.grantRenderer j).Renders j.next top := by
  rw [State.grantRenderer_of_more hmore]
  exact ⟨rfl, h.top, hmore, Plane.setPixel_wf _ _ _ _ h.target, h.window, h.waits⟩

/-- The write of a fill leaves every pixel outside the window. -/
theorem State.portPixel_outside {s : State} (hwf : s.image.target.wf = true) (hon : s.port.window.onPanel) (v : Level)
    {x y : Nat} (hx : x < 1248) (hout : s.port.window.holds x y = false) :
    (s.portPixel v).image.target.level x y = s.image.target.level x y := by
  rw [State.portPixel_eq]
  split
  · next hlt =>
    refine (State.portWrite_level hwf hon v hx).trans (if_neg ?_)
    rintro ⟨hxp, hyp⟩
    rw [← Bool.not_eq_true, Rect.holds_iff] at hout
    have hcol := Nat.mod_lt s.port.position (Nat.succ_pos (s.port.window.x1 - s.port.window.x0))
    have hrow : s.port.position / (s.port.window.x1 - s.port.window.x0 + 1) <
        s.port.window.y1 - s.port.window.y0 + 1 := Nat.div_lt_of_lt_mul hlt
    obtain ⟨h1, -, h3, -⟩ := hon
    rw [Nat.succ_eq_add_one] at hcol
    generalize s.port.position % (s.port.window.x1 - s.port.window.x0 + 1) = col at hxp hcol
    generalize s.port.position / (s.port.window.x1 - s.port.window.x0 + 1) = row at hyp hrow
    exact hout ⟨by omega, by omega, by omega, by omega⟩
  · rfl

theorem State.portPixel_wf {s : State} (hwf : s.image.target.wf = true) (v : Level) :
    (s.portPixel v).image.target.wf = true := by
  rw [State.portPixel_eq]
  split
  · exact Plane.setPixel_wf _ _ _ _ hwf
  · exact hwf

theorem State.Renders.after_grantFill {s : State} {j : RenderJob} {top : Nat} (h : s.Renders j top) {v : Level}
    {left : Nat} (hf : s.port.state = .filling v left) (ht : s.image.turn = .port) :
    (s.grantFill v left).Renders j top := by
  obtain ⟨hrenderer, hsetter, -, -, hwindow, htarget⟩ := s.grantFill_rest v left
  refine ⟨by rw [hrenderer]; exact h.job, by rw [hsetter]; exact h.top, by rw [hsetter]; exact h.written, ?_,
    by rw [hwindow]; exact h.window, ?_⟩
  · rw [htarget]
    exact State.portPixel_wf h.target v
  · rw [← State.grantOne_of_fill hf (.inr ht)]
    exact State.grantOne_waits h.waits

/-- What RENDER_DONE leaves of the box, whatever grants of a fill come between. -/
structure State.BoxDone (s : State) (j : RenderJob) (top : Nat) (u : State) : Prop where
  renderer : u.renderer = ⟨s.renderer.list, none⟩
  stores : StoresJob j s.lines u.lines
  painted : ∀ x y, x < 1248 → (s.port.Fills → s.port.window.holds x y = false) →
    s.PaintedAt j top u.image.target x y

theorem State.renderDone_rest (j : RenderJob) (s : State) :
    (s.renderDone j).lines = s.lines.setRendered j.slot j.description.signature j.description.length ∧
      (s.renderDone j).image.target = s.image.target := by
  have h := State.post_panelOnly
    ⟨s.setter.template.boxRect ((s.setter.template.boxTop j.slot).getD 0), s.sched.settings.autoMode j.cause, .render,
      false⟩
    { s with lines := s.lines.setRendered j.slot j.description.signature j.description.length }
  rw [State.renderDone_eq, State.endRender_eq]
  split <;> exact ⟨h.lines, h.target⟩

theorem exec_renderDone_boxDone {s : State} {j : RenderJob} {top : Nat} (h : s.Renders j top) :
    ∃ u, exec .renderDone s = .next u ∧ s.BoxDone j top u := by
  induction hn : s.waitingWrites using Nat.strong_induction_on generalizing s j with
  | _ n ih =>
    subst hn
    have hjob : s.renderer.job ≠ none := by simp [h.job]
    have hless := State.waitingWrites_grantOne h.waits (.inl hjob)
    rw [exec_renderDone_grant h.waits hjob]
    by_cases hturn : ¬ s.port.Fills ∨ s.image.turn = .renderer
    · rw [State.grantOne_of_renderer h.job hturn] at hless ⊢
      rcases Nat.lt_or_ge (j.written + 1) (1248 * s.setter.template.pitch) with hmore | hlast
      · obtain ⟨u, hu, hdone⟩ := ih _ hless (h.after_grantRenderer hmore) rfl
        refine ⟨u, hu, ?_⟩
        rw [State.grantRenderer_of_more hmore] at hdone
        exact ⟨hdone.renderer, hdone.stores, fun x y hx hout =>
          State.paintedAt_step h.target h.top hmore hx (hdone.painted x y hx hout)⟩
      · rw [State.grantRenderer_of_last hlast]
        obtain ⟨hlines, htarget⟩ := State.renderDone_rest j.next
          { s.rendererPixel j with renderer := { s.renderer with job := some j.next } }
        refine ⟨_, exec_renderDone_of_none (by rw [State.renderDone_renderer]), ?_, ?_, fun x y hx _ => ?_⟩
        · rw [State.renderDone_renderer]
        · rw [hlines]
          exact setRendered_stores (j := j.next) (Template.boxTop_lt h.top)
        · rw [htarget]
          exact State.paintedAt_last h.target h.top h.written hlast hx
    · obtain ⟨hfills, ht⟩ := not_or.1 hturn
      obtain ⟨v, left, hf⟩ := not_not.1 hfills
      have ht : s.image.turn = .port := by
        cases hc : s.image.turn with
        | port => rfl
        | renderer => exact absurd hc ht
      rw [State.grantOne_of_fill hf (.inr ht)] at hless ⊢
      obtain ⟨u, hu, hdone⟩ := ih _ hless (h.after_grantFill hf ht) rfl
      obtain ⟨hrenderer, hsetter, hfaces, hlines, hwindow, htarget⟩ := s.grantFill_rest v left
      refine ⟨u, hu, ?_, ?_, fun x y hx hout => ?_⟩
      · rw [hdone.renderer, hrenderer]
      · have := hdone.stores
        rw [hlines] at this
        exact this
      · have hout := hout ⟨v, left, hf⟩
        refine State.paintedAt_congr hfaces hsetter ?_ (hdone.painted x y hx fun _ => by rw [hwindow]; exact hout)
        rw [htarget]
        exact State.portPixel_outside h.target h.window v hx hout

/-! ### Render done of a box that the renderer paints alone -/

/-- The part when the last pixel of a box is written: the port's turn, and the render not yet ended. -/
def State.boxPainted (s : State) (j : RenderJob) (target : Plane) : State :=
  { s with
    image := { s.image with target := target, turn := .port }
    renderer := { s.renderer with job := some { j with written := 1248 * s.setter.template.pitch } } }

theorem exec_renderDone_alone {s : State} {j : RenderJob} {top : Nat} (h : s.Renders j top)
    (halone : ¬ s.port.Fills ∨ (s.image.turn = .renderer ∧ 1248 * s.setter.template.pitch ≤ j.written + 1)) :
    ∃ target, (∀ x y, x < 1248 → s.PaintedAt j top target x y) ∧
      exec .renderDone s = .next ((s.boxPainted j target).renderDone j) := by
  induction hn : s.waitingWrites using Nat.strong_induction_on generalizing s j with
  | _ n ih =>
    subst hn
    have hjob : s.renderer.job ≠ none := by simp [h.job]
    have hless := State.waitingWrites_grantOne h.waits (.inl hjob)
    rw [State.grantOne_of_renderer h.job (halone.imp_right And.left)] at hless
    rw [exec_renderDone_grant h.waits hjob, State.grantOne_of_renderer h.job (halone.imp_right And.left)]
    rcases Nat.lt_or_ge (j.written + 1) (1248 * s.setter.template.pitch) with hmore | hlast
    · have hidle : ¬ s.port.Fills := halone.resolve_right fun hc => by omega
      obtain ⟨target, hpainted, hexec⟩ := ih _ hless (h.after_grantRenderer hmore)
        (.inl (by rw [State.grantRenderer_port]; exact hidle)) rfl
      rw [State.grantRenderer_of_more hmore] at hpainted hexec ⊢
      exact ⟨target, fun x y hx => State.paintedAt_step h.target h.top hmore hx (hpainted x y hx), hexec⟩
    · refine ⟨(s.rendererPixel j).image.target,
        fun x y hx => State.paintedAt_last h.target h.top h.written hlast hx, ?_⟩
      rw [State.grantRenderer_of_last hlast, exec_renderDone_of_none (by rw [State.renderDone_renderer])]
      have hwritten : j.written + 1 = 1248 * s.setter.template.pitch := by
        have := h.written
        omega
      have hnext : j.next = { j with written := 1248 * s.setter.template.pitch } := by
        rw [RenderJob.next, hwritten]
      rw [hnext]
      rfl

/-- Settles O48: the box is painted in grants, whose order with those of a fill does not matter outside the window; then
its request is posted from the part as its last pixel leaves it. -/
theorem renderDonePaintsTheBox : Obligations.RenderDonePaintsTheBox := by
  intro s j top hcanon hrects hlines hport hjob htop
  obtain ⟨hwf, -⟩ := hcanon
  obtain ⟨-, -, hon, -⟩ := hrects
  obtain ⟨-, -, -, hjobs, -⟩ := hlines
  have h : s.Renders j top := ⟨hjob, htop, (hjobs j hjob).2, hwf, hon, hport.waits⟩
  have hslot : j.slot < 210 := Template.boxTop_lt htop
  refine ⟨?_, fun halone => ?_, fun u _ hu => ?_⟩
  · obtain ⟨u, hu, hdone⟩ := exec_renderDone_boxDone h
    exact ⟨u, hu, hdone.renderer, hdone.stores, hdone.painted⟩
  · obtain ⟨target, hpainted, hexec⟩ := exec_renderDone_alone h halone
    refine ⟨target, s.lines.setRendered j.slot j.description.signature j.description.length, hpainted,
      setRendered_stores hslot, ?_⟩
    intro p q done
    have hrect : s.setter.template.boxRect ((s.setter.template.boxTop j.slot).getD 0) =
        ⟨0, top, 1247, top + s.setter.template.pitch - 1⟩ := by rw [htop]; rfl
    have hposted : (s.boxPainted j target).renderDone j = q.endRender := by
      have hq : (s.boxPainted j target).renderDone j = (p.post
          ⟨s.setter.template.boxRect ((s.setter.template.boxTop j.slot).getD 0),
            s.sched.settings.autoMode j.cause, .render, false⟩).endRender := rfl
      rw [hq, hrect]
      unfold q
      cases j.cause <;> rfl
    have hrenderer : q.renderer = p.renderer := (State.post_panelOnly _ p).renderer
    have hlist : q.renderer.list = s.renderer.list := by rw [hrenderer]
    rw [hexec, hposted, State.endRender_eq]
    simp only [List.isEmpty_iff, hlist]
    rfl
  · rw [exec_renderDone_grant hport.waits (by simp [hjob])]
    cases Host.Outcome.next.inj hu
    rfl

end Sys2Proof.Machine
end

section
/-! PROOF. The image port (R106 to R113): IMAGE WINDOW, IMAGE WRITE with its bytes, and IMAGE FILL to its completion. -/

namespace Sys2Proof.Machine

/-! ### Operands -/

theorem windowModeOf_of_gt {n : Nat} (h : 3 < n) : windowModeOf n = none := by
  unfold windowModeOf
  rw [if_neg (by omega), modeOf_of_bad (.inr h)]
  rfl

theorem windowModeOf_of_le {n : Nat} (h : n ≤ 3) :
    windowModeOf n = some ([none, some Mode.fast, some Mode.gray, some Mode.clean].getD n none) := by
  interval_cases n <;> rfl

/-- The operands of IMAGE WINDOW are out of their ranges (R108). -/
def WindowBad (ps : List Byte) : Prop :=
  field ps 4 2 < field ps 0 2 ∨ field ps 6 2 < field ps 2 2 ∨ 1247 < field ps 0 2 ∨ 1663 < field ps 2 2 ∨
    3 < field ps 8 1

theorem imageWindowOf_of_bad {ps : List Byte} (h : WindowBad ps) : imageWindowOf ps = none := by
  unfold WindowBad at h
  unfold imageWindowOf rectOf
  by_cases hm : 3 < field ps 8 1
  · rw [windowModeOf_of_gt hm]
    rfl
  · rw [windowModeOf_of_le (Nat.not_lt.1 hm)]
    exact if_neg fun ⟨hx, hy, hx0, hy0⟩ => by
      dsimp only at hx hy hx0 hy0
      omega

theorem imageWindowOf_of_not_bad {ps : List Byte} (h : ¬ WindowBad ps) : imageWindowOf ps =
    some (⟨field ps 0 2, field ps 2 2, min (field ps 4 2) 1247, min (field ps 6 2) 1663⟩,
      [none, some Mode.fast, some Mode.gray, some Mode.clean].getD (field ps 8 1) none) := by
  unfold WindowBad at h
  unfold imageWindowOf rectOf
  rw [windowModeOf_of_le (by omega), ← clampX_eq, ← clampY_eq]
  refine if_pos ⟨?_, ?_, ?_, ?_⟩ <;> dsimp only <;> omega

theorem imageFillOf_of_bad {ps : List Byte} (h : 15 < field ps 0 1 ∨ field ps 1 3 = 0 ∨ 65536 < field ps 1 3) :
    imageFillOf ps = none := by
  unfold imageFillOf
  by_cases hv : 15 < field ps 0 1
  · rw [levelOf_of_gt hv]
    rfl
  · cases levelOf (field ps 0 1) with
    | none => rfl
    | some v => exact if_neg fun ⟨h1, h2⟩ => by omega

theorem imageFillOf_of_level {ps : List Byte} {v : Level} (hv : field ps 0 1 = v.val) (h1 : field ps 1 3 ≠ 0)
    (h2 : field ps 1 3 ≤ 65536) : imageFillOf ps = some (v, field ps 1 3) := by
  unfold imageFillOf
  rw [hv, levelOf_val]
  exact if_pos ⟨by omega, h2⟩

theorem State.imageWindow_of_idle {p : State} {ps : List Byte} (h : ¬ p.port.Fills) : p.imageWindow ps =
    match imageWindowOf ps with
    | none => p.refuse Cmd.imageWindow.code .badParam
    | some w => { p with port := { p.port with window := w.1, mode := w.2, position := 0 } } :=
  if_neg (mt p.port.isFilling_iff.1 h)

theorem State.imageFill_of_none {p : State} {ps : List Byte} (h : ¬ p.port.Fills) (hop : imageFillOf ps = none) :
    p.imageFill ps = p.refuse Cmd.imageFill.code .badParam := by
  rw [State.imageFill, if_neg (mt p.port.isFilling_iff.1 h), hop]

theorem State.imageFill_of_some {p : State} {ps : List Byte} {v : Level} {count : Nat} (h : ¬ p.port.Fills)
    (hop : imageFillOf ps = some (v, count)) : p.imageFill ps =
      if min count (p.port.size - p.port.position) = 0 then p.endPortWork
      else { p with port := { p.port with state := .filling v (min count (p.port.size - p.port.position)) } } := by
  rw [State.imageFill, if_neg (mt p.port.isFilling_iff.1 h), hop]

/-! ### The pixels of a stream -/

section
variable {s : State}

/-- A stream's pixel goes behind a write of the renderer whose turn it is (R109). -/
def State.yieldTurn (s : State) : State :=
  match s.renderer.job with
  | some j => if s.image.turn = .renderer then s.grantRenderer j else s
  | none => s

theorem State.yieldTurn_of_none (h : s.renderer.job = none) : s.yieldTurn = s := by
  simp only [State.yieldTurn, h]

theorem State.streamPixel_of_full (v : Level) (h : ¬ s.port.position < s.port.size) : s.streamPixel v = s :=
  if_neg h

theorem State.streamPixel_of_room (v : Level) (h : s.port.position < s.port.size) :
    s.streamPixel v = s.yieldTurn.portPixel v := by
  unfold State.streamPixel State.yieldTurn
  rw [if_pos h]
  cases s.renderer.job with
  | none => rfl
  | some j =>
    dsimp only
    split <;> rfl

theorem State.yieldTurn_port : s.yieldTurn.port = s.port := by
  unfold State.yieldTurn
  split
  · split
    · exact State.grantRenderer_port _ s
    · rfl
  · rfl

theorem State.grantRenderer_wf (h : s.image.target.wf = true) (j : RenderJob) :
    (s.grantRenderer j).image.target.wf = true := by
  have hpixel : (s.rendererPixel j).image.target.wf = true := Plane.setPixel_wf _ _ _ _ h
  rw [State.grantRenderer_eq]
  split
  · rw [(State.renderDone_rest _ _).2]
    exact hpixel
  · exact hpixel

theorem State.yieldTurn_wf (h : s.image.target.wf = true) : s.yieldTurn.image.target.wf = true := by
  unfold State.yieldTurn
  split
  · split
    · exact State.grantRenderer_wf h _
    · exact h
  · exact h

theorem State.portPixel_of_room (v : Level) (h : s.port.position < s.port.size) : s.portPixel v =
    { s.portWrite v with port := { s.port with position := s.port.position + 1 } } :=
  if_pos h

theorem State.portPixel_of_full (v : Level) (h : ¬ s.port.position < s.port.size) : s.portPixel v = s :=
  if_neg h

theorem State.streamPixel_port (v : Level) (h : s.port.position ≤ s.port.size) :
    (s.streamPixel v).port = { s.port with position := min (s.port.position + 1) s.port.size } := by
  by_cases hlt : s.port.position < s.port.size
  · have hroom : s.yieldTurn.port.position < s.yieldTurn.port.size := by
      rw [State.yieldTurn_port]
      exact hlt
    rw [State.streamPixel_of_room v hlt, State.portPixel_port hroom, State.yieldTurn_port,
      Nat.min_eq_left (Nat.succ_le_of_lt hlt)]
  · have hfull : min (s.port.position + 1) s.port.size = s.port.position := by omega
    rw [State.streamPixel_of_full v hlt, hfull]

theorem State.streamPixel_wf (v : Level) (h : s.image.target.wf = true) :
    (s.streamPixel v).image.target.wf = true := by
  by_cases hlt : s.port.position < s.port.size
  · rw [State.streamPixel_of_room v hlt]
    exact State.portPixel_wf (State.yieldTurn_wf h) v
  · rw [State.streamPixel_of_full v hlt]
    exact h

/-- Without a render under way a stream's pixel is written at once. -/
theorem State.streamPixel_of_idle (v : Level) (h : s.renderer.job = none) : s.streamPixel v = s.portPixel v := by
  by_cases hlt : s.port.position < s.port.size
  · rw [State.streamPixel_of_room v hlt, State.yieldTurn_of_none h]
  · rw [State.streamPixel_of_full v hlt, State.portPixel_of_full v hlt]

end

/-! ### The window's indices -/

/-- The level of a window's index in a plane (R107). -/
def Rect.indexLevel (w : Rect) (target : Plane) (i : Nat) : Level :=
  target.level (w.x0 + i % (w.x1 - w.x0 + 1)) (w.y0 + i / (w.x1 - w.x0 + 1))

theorem windowIndex_inj {w i k : Nat} (h1 : i % w = k % w) (h2 : i / w = k / w) : i = k := by
  rw [← Nat.div_add_mod i w, ← Nat.div_add_mod k w, h1, h2]

theorem State.portWrite_index {s : State} (hwf : s.image.target.wf = true) (hon : s.port.window.onPanel) (v : Level)
    (i : Nat) : s.port.window.indexLevel (s.portWrite v).image.target i =
      if i = s.port.position then v else s.port.window.indexLevel s.image.target i := by
  unfold Rect.indexLevel
  rw [State.portWrite_level hwf hon v (ImagePort.pixel_lt hon i)]
  by_cases hi : i = s.port.position
  · rw [if_pos hi, hi, if_pos ⟨rfl, rfl⟩]
  · rw [if_neg hi, if_neg fun ⟨h1, h2⟩ => hi (windowIndex_inj (Nat.add_left_cancel h1) (Nat.add_left_cancel h2))]

theorem State.portPixel_index {s : State} (hwf : s.image.target.wf = true) (hon : s.port.window.onPanel) (v : Level)
    (i : Nat) : s.port.window.indexLevel (s.portPixel v).image.target i =
      if s.port.position < s.port.size ∧ i = s.port.position then v
      else s.port.window.indexLevel s.image.target i := by
  by_cases hlt : s.port.position < s.port.size
  · rw [State.portPixel_of_room v hlt]
    refine (State.portWrite_index hwf hon v i).trans ?_
    by_cases hi : i = s.port.position
    · rw [if_pos hi, if_pos ⟨hlt, hi⟩]
    · rw [if_neg hi, if_neg fun hc => hi hc.2]
  · rw [State.portPixel_of_full v hlt, if_neg fun hc => hlt hc.1]

/-! ### A stream's byte -/

/-- A byte of the write stream. -/
theorem exec_imageWriteByte {s : State} {b : Byte} (h : s.AtParam b) (ht : s.link.taking = .image) :
    exec .imageWriteByte s = .next (s.dropFront.imageByte b).settleCut :=
  acts_atStreamByte h (by rw [ht]; rfl) rfl

theorem State.imageByte_port {s : State} (b : Byte) (h : s.port.position ≤ s.port.size) :
    (s.imageByte b).port = { s.port with position := min (s.port.position + 2) s.port.size } := by
  have hsize : (s.streamPixel (highPixel b)).port.size = s.port.size := by
    rw [State.streamPixel_port _ h]
    rfl
  have hfirst : (s.streamPixel (highPixel b)).port.position = min (s.port.position + 1) s.port.size := by
    rw [State.streamPixel_port _ h]
  have hmin : min (min (s.port.position + 1) s.port.size + 1) s.port.size =
      min (s.port.position + 2) s.port.size := by omega
  rw [State.imageByte, State.streamPixel_port _ (by omega), hsize, hfirst, hmin, State.streamPixel_port _ h]

section
variable {s : State} (b : Byte)

theorem State.imageByte_of_idle (hj : s.renderer.job = none) :
    s.imageByte b = (s.portPixel (highPixel b)).portPixel (lowPixel b) := by
  rw [State.imageByte, State.streamPixel_of_idle _ hj, State.streamPixel_of_idle]
  rw [(s.portPixel_rest _).1]
  exact hj

/-- Two pixels of the port change the target plane, the turn and the write position alone. -/
theorem State.portPixels_eq (v w : Level) : (s.portPixel v).portPixel w = { s with
    image := { s.image with
      target := ((s.portPixel v).portPixel w).image.target
      turn := if s.port.position < s.port.size then .renderer else s.image.turn }
    port := ((s.portPixel v).portPixel w).port } := by
  by_cases hlt : s.port.position < s.port.size
  · rw [State.portPixel_of_room v hlt, if_pos hlt, State.portPixel_eq]
    split <;> rfl
  · rw [State.portPixel_of_full v hlt, State.portPixel_of_full w hlt, if_neg hlt]

theorem State.portPixels_outside (hwf : s.image.target.wf = true) (hon : s.port.window.onPanel) (v w : Level) {x y : Nat}
    (hx : x < 1248) (hout : s.port.window.holds x y = false) :
    ((s.portPixel v).portPixel w).image.target.level x y = s.image.target.level x y := by
  obtain ⟨-, -, -, -, hwindow⟩ := s.portPixel_rest v
  rw [State.portPixel_outside (State.portPixel_wf hwf v) (by rw [hwindow]; exact hon) w hx (by rw [hwindow]; exact hout),
    State.portPixel_outside hwf hon v hx hout]

theorem State.portPixels_index (hwf : s.image.target.wf = true) (hon : s.port.window.onPanel) (v w : Level) {i : Nat}
    (hi : i < s.port.size) : s.port.window.indexLevel ((s.portPixel v).portPixel w).image.target i =
      if i = s.port.position then v else if i = s.port.position + 1 then w
      else s.port.window.indexLevel s.image.target i := by
  obtain ⟨-, -, -, -, hwindow⟩ := s.portPixel_rest v
  have hsecond := State.portPixel_index (State.portPixel_wf hwf v) (by rw [hwindow]; exact hon) w i
  rw [hwindow, State.portPixel_index hwf hon v i] at hsecond
  rw [hsecond]
  by_cases hlt : s.port.position < s.port.size
  · rw [State.portPixel_port hlt]
    have hsize : ({ s.port with position := s.port.position + 1 } : ImagePort).size = s.port.size := rfl
    dsimp only
    rw [hsize]
    by_cases h0 : i = s.port.position
    · rw [if_neg fun hc => by omega, if_pos ⟨hlt, h0⟩, if_pos h0]
    · rw [if_neg (c := s.port.position < s.port.size ∧ i = s.port.position) fun hc => h0 hc.2, if_neg h0]
      by_cases h1 : i = s.port.position + 1
      · rw [if_pos ⟨by omega, h1⟩, if_pos h1]
      · rw [if_neg fun hc => h1 hc.2, if_neg h1]
  · rw [State.portPixel_of_full v hlt, if_neg fun hc => hlt hc.1, if_neg fun hc => hlt hc.1, if_neg (by omega),
      if_neg (by omega)]

end

/-- One pixel of a stream byte, in a window, with the renderer's write before it where it is that one's turn. -/
def StreamsPixel (W : Rect) (p q : State) (v : Nat) : Prop :=
  if p.port.position < (W.x1 - W.x0 + 1) * (W.y1 - W.y0 + 1) then
    ∃ g : State,
      (if p.renderer.job ≠ none ∧ p.image.turn = .renderer then exec .arbiterWriteGrant p = .next g else g = p) ∧
      ∃ target : Plane,
        q = { g with
          image := { g.image with target := target, turn := .renderer }
          port := { g.port with position := g.port.position + 1 } } ∧
        ∀ x y, x < 1248 → (target.level x y).val =
          if x = W.x0 + g.port.position % (W.x1 - W.x0 + 1) ∧ y = W.y0 + g.port.position / (W.x1 - W.x0 + 1) then v
          else (g.image.target.level x y).val
  else q = p

theorem State.yieldTurn_grants (p : State) :
    if p.renderer.job ≠ none ∧ p.image.turn = .renderer then exec .arbiterWriteGrant p = .next p.yieldTurn
    else p.yieldTurn = p := by
  cases hj : p.renderer.job with
  | none => exact State.yieldTurn_of_none hj
  | some j =>
    by_cases ht : p.image.turn = .renderer
    · rw [if_pos ⟨by simp, ht⟩, exec_arbiterWriteGrant, State.grantOne_of_renderer hj (.inr ht)]
      simp only [State.yieldTurn, hj, if_pos ht]
    · rw [if_neg fun hc => ht hc.2]
      simp only [State.yieldTurn, hj, if_neg ht]

theorem State.streamPixel_streams {p : State} {W : Rect} (hW : p.port.window = W) (hwf : p.image.target.wf = true)
    (hon : W.onPanel) (v : Level) : StreamsPixel W p (p.streamPixel v) v.val := by
  subst hW
  unfold StreamsPixel
  by_cases hroom : p.port.position < (p.port.window.x1 - p.port.window.x0 + 1) * (p.port.window.y1 - p.port.window.y0 + 1)
  · rw [if_pos hroom]
    have hlt : p.port.position < p.port.size := hroom
    have hport : p.yieldTurn.port = p.port := State.yieldTurn_port
    refine ⟨p.yieldTurn, p.yieldTurn_grants, (p.yieldTurn.portWrite v).image.target, ?_, fun x y hx => ?_⟩
    · rw [State.streamPixel_of_room v hlt, State.portPixel_of_room v (by rw [hport]; exact hlt)]
      rfl
    · have hlevel := State.portWrite_level (State.yieldTurn_wf hwf) (by rw [hport]; exact hon) v (x := x) (y := y) hx
      rw [hport] at hlevel ⊢
      rw [hlevel]
      split <;> rfl
  · rw [if_neg hroom]
    exact State.streamPixel_of_full v hroom

/-! ### The course of a fill -/

/-- A fill under way in a window of the panel that has room for it. -/
structure State.FillsRoom (s : State) (v : Level) (left : Nat) : Prop where
  state : s.port.state = .filling v left
  pending : 1 ≤ left
  room : s.port.position + left ≤ s.port.size

theorem State.FillsRoom.waits {s : State} {v : Level} {left : Nat} (h : s.FillsRoom v left) : s.port.Waits :=
  fun w k hk => by
    cases h.state.symm.trans hk
    exact h.pending

theorem State.FillsRoom.fills {s : State} {v : Level} {left : Nat} (h : s.FillsRoom v left) : s.port.Fills :=
  ⟨v, left, h.state⟩

theorem State.FillsRoom.lt {s : State} {v : Level} {left : Nat} (h : s.FillsRoom v left) :
    s.port.position < s.port.size :=
  Nat.lt_of_lt_of_le (Nat.lt_add_of_pos_right h.pending) h.room

theorem State.FillsRoom.next {s : State} {v : Level} {left : Nat} (h : s.FillsRoom v left) (hmore : 2 ≤ left) :
    (s.grantFill v left).FillsRoom v (left - 1) := by
  have hport := State.grantFill_position (v := v) (left := left) h.lt
  rw [if_neg (by omega)] at hport
  refine ⟨by rw [hport], by omega, ?_⟩
  rw [hport]
  have hroom := h.room
  show s.port.position + 1 + (left - 1) ≤ s.port.size
  omega

/-- A fill's completion leaves the port IDLE behind the fill, whatever grants of a render come between. -/
theorem exec_fillComplete_port {s : State} {v : Level} {left : Nat} (h : s.FillsRoom v left) :
    ∃ u, exec .fillComplete s = .next u ∧
      u.port = { s.port with position := s.port.position + left, state := .idle } := by
  induction hn : s.waitingWrites using Nat.strong_induction_on generalizing s left with
  | _ n ih =>
    subst hn
    have hless := State.waitingWrites_grantOne h.waits (.inr h.fills)
    rw [exec_fillComplete_grant h.waits h.fills]
    by_cases hturn : s.renderer.job = none ∨ s.image.turn = .port
    · rw [State.grantOne_of_fill h.state hturn] at hless ⊢
      have hport := State.grantFill_position (v := v) (left := left) h.lt
      rcases Nat.lt_or_ge left 2 with hlast | hmore
      · have hone : left = 1 := by
          have := h.pending
          omega
        rw [if_pos (by omega)] at hport
        refine ⟨_, exec_fillComplete_of_not ?_, by rw [hport, hone]⟩
        rw [hport]
        exact nofun
      · obtain ⟨u, hu, hdone⟩ := ih _ hless (h.next hmore) rfl
        refine ⟨u, hu, ?_⟩
        have hend : s.port.position + 1 + (left - 1) = s.port.position + left := by omega
        rw [hdone, hport]
        dsimp only
        rw [hend]
    · obtain ⟨hjob, hport⟩ := not_or.1 hturn
      obtain ⟨j, hj⟩ := Option.ne_none_iff_exists'.1 hjob
      have ht : s.image.turn = .renderer := by
        cases hc : s.image.turn with
        | port => exact absurd hc hport
        | renderer => rfl
      rw [State.grantOne_of_renderer hj (.inr ht)] at hless ⊢
      have hsame := State.grantRenderer_port j s
      obtain ⟨u, hu, hdone⟩ := ih _ hless (left := left)
        ⟨by rw [hsame]; exact h.state, h.pending, by rw [hsame]; exact h.room⟩ rfl
      exact ⟨u, hu, by rw [hdone, hsame]⟩

/-- What a fill with the arbiter to itself leaves in the target plane. -/
structure State.Filled (s : State) (v : Level) (left : Nat) (target : Plane) : Prop where
  outside : ∀ x y, x < 1248 → s.port.window.holds x y = false → target.level x y = s.image.target.level x y
  inside : ∀ i, s.port.window.indexLevel target i =
    if s.port.position ≤ i ∧ i < s.port.position + left then v else s.port.window.indexLevel s.image.target i

theorem exec_fillComplete_alone {s : State} {v : Level} {left : Nat} (h : s.FillsRoom v left)
    (hj : s.renderer.job = none) (hwf : s.image.target.wf = true) (hon : s.port.window.onPanel) :
    ∃ target, s.Filled v left target ∧ exec .fillComplete s = .next
      ({ s with
        image := { s.image with target := target, turn := .renderer }
        port := { s.port with position := s.port.position + left, state := .idle } } : State).postWindow := by
  induction left generalizing s with
  | zero => exact absurd h.pending (by decide)
  | succ n ih =>
    have hlt := h.lt
    have hout {x y : Nat} (hx : x < 1248) (hxy : s.port.window.holds x y = false) :
        (s.portWrite v).image.target.level x y = s.image.target.level x y := by
      have := State.portPixel_outside hwf hon v hx hxy
      rw [State.portPixel_of_room v hlt] at this
      exact this
    have hindex (i : Nat) := State.portWrite_index hwf hon v i
    rw [exec_fillComplete_grant h.waits h.fills, State.grantOne_of_fill h.state (.inl hj), State.grantFill_eq,
      State.portPixel_of_room v hlt]
    rcases Nat.eq_zero_or_pos n with rfl | hpos
    · refine ⟨(s.portWrite v).image.target, ⟨fun x y => hout, fun i => ?_⟩, ?_⟩
      · rw [hindex]
        by_cases hi : i = s.port.position
        · rw [if_pos hi, if_pos (by omega)]
        · rw [if_neg hi, if_neg (by omega)]
      · rw [if_pos (Nat.le_refl 1)]
        refine exec_fillComplete_of_not ?_
        rw [State.endPortWork_port]
        exact nofun
    · rw [if_neg (by omega)]
      have hnext : ({ s.portWrite v with
          port := { s.port with position := s.port.position + 1, state := .filling v n } } : State).FillsRoom v n := by
        refine ⟨rfl, hpos, ?_⟩
        have hroom := h.room
        show s.port.position + 1 + n ≤ s.port.size
        omega
      obtain ⟨target, hfilled, hexec⟩ := ih hnext hj (Plane.setPixel_wf _ _ _ _ hwf) hon
      have hend : s.port.position + 1 + n = s.port.position + (n + 1) := by omega
      refine ⟨target, ⟨fun x y hx hxy => (hfilled.outside x y hx hxy).trans (hout hx hxy), fun i => ?_⟩, ?_⟩
      · refine (hfilled.inside i).trans ?_
        by_cases hi : s.port.position + 1 ≤ i ∧ i < s.port.position + 1 + n
        · rw [if_pos hi, if_pos (by omega)]
        · rw [if_neg hi]
          refine (hindex i).trans ?_
          by_cases h0 : i = s.port.position
          · rw [if_pos h0, if_pos (by omega)]
          · rw [if_neg h0, if_neg (by omega)]
      · rw [← hend]
        exact hexec

/-- Settles O49: the operands in their ranges, a stream's byte as two pixels of the window, a fill as its grants. -/
theorem imagePortWritesItsWindow : Obligations.ImagePortWritesItsWindow := by
  refine ⟨fun s ps => ?_, fun s h ha => ⟨fun hf => ?_, fun hf => ?_⟩, fun s hcanon hrects hport => ?_⟩
  · intro p filling size
    refine ⟨fun h => ⟨fun hf => ?_, fun hf hbad => ?_, fun hf hbad => ?_⟩,
      fun h => ⟨fun hf => ?_, fun hf hbad => ?_, fun v hf hbad hv hroom => ?_, fun hf hbad hfull => ?_⟩⟩
    · exact acts_atLastParam h (if_pos (p.port.isFilling_iff.2 hf))
    · refine acts_atLastParam h ((State.imageWindow_of_idle hf).trans ?_)
      rw [imageWindowOf_of_bad hbad]
      rfl
    · refine acts_atLastParam h ((State.imageWindow_of_idle hf).trans ?_)
      rw [imageWindowOf_of_not_bad hbad]
    · exact acts_atLastParam h (if_pos (p.port.isFilling_iff.2 hf))
    · exact acts_atLastParam h (State.imageFill_of_none hf (imageFillOf_of_bad hbad))
    · refine acts_atLastParam h ((State.imageFill_of_some hf (imageFillOf_of_level hv (by omega) (by omega))).trans
        (if_neg ?_))
      have hlt : p.port.position < p.port.size := hroom
      show ¬ min (field ps 1 3) (p.port.size - p.port.position) = 0
      omega
    · have hlevel : field ps 0 1 = (⟨field ps 0 1, by omega⟩ : Level).val := rfl
      refine acts_atLastParam h ((State.imageFill_of_some hf (imageFillOf_of_level hlevel (by omega) (by omega))).trans
        ((if_pos ?_).trans ?_))
      · have hle : p.port.size ≤ p.port.position := hfull
        show min (field ps 1 3) (p.port.size - p.port.position) = 0
        omega
      · rfl
  · exact acts_atCommand h (.inl ha) (if_pos ((ImagePort.isFilling_iff _).2 hf))
  · refine acts_atCommand h (.inl ha) (if_neg fun hc => ?_)
    obtain ⟨v, left, hv⟩ := (ImagePort.isFilling_iff _).1 hc
    exact hf v left hv
  · obtain ⟨hwf, -⟩ := hcanon
    obtain ⟨-, -, hon, -⟩ := hrects
    obtain ⟨hle, hfilling⟩ := hport
    have room {v : Level} {left : Nat} (hf : s.port.state = .filling v left) : s.FillsRoom v left :=
      ⟨hf, (hfilling v left hf).1, (hfilling v left hf).2.1⟩
    intro w size k level outside
    refine ⟨fun b h ht => ⟨s.dropFront.imageByte b, exec_imageWriteByte h ht, State.imageByte_port b hle, fun hj => ?_⟩,
      fun b h ht => ⟨s.dropFront.streamPixel (highPixel b), s.dropFront.imageByte b, ?_, ?_, exec_imageWriteByte h ht⟩,
      fun v left hf => ⟨fun u _ _ hu => ?_, exec_fillComplete_port (room hf), fun hj => ?_⟩,
      fun hf => exec_fillComplete_of_not fun ⟨v, left, hv⟩ => hf v left hv⟩
    · have hbyte := State.imageByte_of_idle (s := s.dropFront) b hj
      rw [hbyte]
      refine ⟨State.portPixels_eq _ _, fun x y hx hxy =>
        State.portPixels_outside (s := s.dropFront) hwf hon _ _ hx hxy, fun i hi => ?_⟩
      have hindex := State.portPixels_index (s := s.dropFront) hwf hon (highPixel b) (lowPixel b) hi
      refine (congrArg Fin.val hindex).trans ?_
      rw [apply_ite Fin.val, apply_ite Fin.val, highPixel_val, lowPixel_val]
      rfl
    · rw [← highPixel_val]
      exact State.streamPixel_streams (p := s.dropFront) rfl hwf hon (highPixel b)
    · rw [← lowPixel_val]
      have hfirst := State.streamPixel_port (s := s.dropFront) (highPixel b) hle
      refine State.streamPixel_streams (p := s.dropFront.streamPixel (highPixel b)) (by rw [hfirst]; rfl)
        (State.streamPixel_wf _ hwf) hon (lowPixel b)
    · rw [exec_fillComplete_grant (room hf).waits (room hf).fills]
      cases Host.Outcome.next.inj hu
      rfl
    · obtain ⟨target, hfilled, hexec⟩ := exec_fillComplete_alone (room hf) hj hwf hon
      exact ⟨target, hfilled.outside, fun i _ => hfilled.inside i, hexec⟩

end Sys2Proof.Machine
end

section
/-! PROOF. Bytes clocked in reply positions (R114, R174): what stands ahead of a read is taken item by item, and a reply is
shifted out byte by byte. -/

namespace Sys2Proof.Machine

/-! ### Taking from the FIFO -/

/-- From `s` to `t` items have left the front of the FIFO, and a reply has been given at most where none is left. -/
structure State.Leads (s t : State) : Prop where
  power : t.power = s.power
  framing : t.link.framing = s.link.framing
  fifo : t.link.fifo <:+ s.link.fifo
  reply : t.link.reply = s.link.reply ∨ t.link.fifo = []

theorem State.Leads.refl (s : State) : s.Leads s := ⟨rfl, rfl, List.suffix_rfl, .inl rfl⟩

theorem State.Leads.trans {s t u : State} (a : s.Leads t) (b : t.Leads u) : s.Leads u := by
  refine ⟨b.power.trans a.power, b.framing.trans a.framing, b.fifo.trans a.fifo, ?_⟩
  rcases b.reply with hb | hb
  · rcases a.reply with ha | ha
    · exact .inl (hb.trans ha)
    · have hnil := b.fifo
      rw [ha] at hnil
      exact .inr (List.suffix_nil.1 hnil)
  · exact .inr hb

/-- A change that leaves the framing, the FIFO and the reply of the link. -/
theorem State.Leads.of_link {s t : State} (hpower : t.power = s.power) (hframing : t.link.framing = s.link.framing)
    (hfifo : t.link.fifo = s.link.fifo) (hreply : t.link.reply = s.link.reply) : s.Leads t :=
  ⟨hpower, hframing, by rw [hfifo], .inl hreply⟩

theorem State.dropFront_leads (s : State) : s.Leads s.dropFront := ⟨rfl, rfl, List.tail_suffix _, .inl rfl⟩

theorem State.setTaking_leads (t : Taking) (s : State) : s.Leads (s.setTaking t) := .of_link rfl rfl rfl rfl

theorem State.refuse_leads (code : Byte) (reason : Reason) (s : State) : s.Leads (s.refuse code reason) :=
  .of_link rfl rfl rfl rfl

/-- The end of what is being taken changes at most the last refusal of the link. -/
theorem State.endTaking_link (s : State) :
    s.endTaking.link = { s.link with lastRefusal := s.endTaking.link.lastRefusal } := by
  unfold State.endTaking
  split
  · rfl
  · rfl
  · rfl
  · next run _ => cases run <;> rfl
  · unfold State.endGlyphStream
    split <;> rfl
  · rfl
  · rw [s.endPortWork_eq.1.link]

theorem State.endTaking_leads (s : State) : s.Leads s.endTaking := by
  have h := s.endTaking_link
  exact .of_link s.endTaking_power (by rw [h]) (by rw [h]) (by rw [h])

/-- The end of a command takes the front item. -/
theorem State.endCommand_leads (next : Taking) (s : State) : s.dropFront.Leads (s.endCommand next) :=
  s.dropFront.endTaking_leads.trans (State.setTaking_leads next _)

theorem State.settleCut_leads (s : State) : s.Leads s.settleCut := by
  unfold State.settleCut
  split
  · exact s.dropFront_leads.trans (s.endCommand_leads _)
  · exact .refl s

/-- A read that acts changes its reply alone of the link, if at all. -/
theorem State.giveReply_leads (r : Reply) (s : State) : s.Leads (s.giveReply r) := by
  rw [State.giveReply_eq]
  refine ⟨rfl, rfl, List.suffix_rfl, ?_⟩
  by_cases h : s.link.fifo = []
  · exact .inr h
  · exact .inl (if_neg fun hc => h hc.1)

theorem State.refuseRead_leads (cmd : Cmd) (reason : Reason) (s : State) : s.Leads (s.refuseRead cmd reason) :=
  (State.refuse_leads _ _ s).trans (State.giveReply_leads _ _)

theorem State.answerRead_leads (s : State) : s.Leads s.answerRead :=
  (State.giveReply_leads (.data (Config.dummyByte :: s.marks.answer.bytes)) s).trans (.of_link rfl rfl rfl rfl)

theorem State.lineRead_leads (ps : List Byte) (s : State) : s.Leads (s.lineRead ps) := by
  unfold State.lineRead
  split
  · exact State.refuseRead_leads _ _ s
  · exact State.giveReply_leads _ s

theorem State.faceInfo_leads (ps : List Byte) (s : State) : s.Leads (s.faceInfo ps) := by
  unfold State.faceInfo
  split
  · exact State.refuseRead_leads _ _ s
  · exact State.giveReply_leads _ s

theorem State.imageRead_leads (ps : List Byte) (s : State) : s.Leads (s.imageRead ps) := by
  unfold State.imageRead
  split
  · exact State.refuseRead_leads _ _ s
  · split
    · exact State.refuseRead_leads _ _ s
    · exact State.giveReply_leads _ s

/-- The link takes nothing, or the front item and perhaps more behind it. -/
def State.Advances (s t : State) : Prop := t = s ∨ (s.link.fifo ≠ [] ∧ s.dropFront.Leads t)

theorem State.atCommand_advances (c : Cmd) {act : State → State} (hact : ∀ u : State, u.Leads (act u)) (s : State) :
    s.Advances (s.atCommand c act) := by
  by_cases h : s.AtCommandByte c
  · have hne : s.link.fifo ≠ [] := by
      obtain ⟨rest, hf⟩ := h
      simp [hf]
    refine .inr ⟨hne, ?_⟩
    by_cases ha : s.begun.power.asleep = false ∨ c.takenAsleep = true
    · rw [State.atCommand_acts act h ha]
      exact ((s.endCommand_leads .ignoring).trans (hact _)).trans (State.settleCut_leads _)
    · obtain ⟨hasleep, hc⟩ := not_or.1 ha
      rw [State.atCommand_asleep act h (by simpa using hasleep) (by simpa using hc)]
      exact ((s.endCommand_leads .ignoring).trans (State.refuse_leads _ _ _)).trans (State.settleCut_leads _)
  · exact .inl (State.atCommand_away act h)

theorem State.atLastParam_advances (c : Cmd) {act : List Byte → State → State}
    (hact : ∀ ps (u : State), u.Leads (act ps u)) (s : State) : s.Advances (s.atLastParam c act) := by
  by_cases h : ∃ ps, s.AtLastParam c ps
  · obtain ⟨ps, h⟩ := h
    rw [State.atLastParam_acts act h]
    obtain ⟨got, b, rest, -, hf, -⟩ := h
    refine .inr ⟨by simp [hf], ?_⟩
    exact ((State.setTaking_leads .ignoring _).trans (hact ps _)).trans (State.settleCut_leads _)
  · exact .inl (State.atLastParam_away act (not_exists.1 h))

theorem State.openCommand_advances (c : Cmd) {s : State} (h : s.link.fifo ≠ []) : s.Advances (s.openCommand c) := by
  refine .inr ⟨h, ?_⟩
  unfold State.openCommand
  refine State.Leads.trans ((s.endCommand_leads .ignoring).trans ?_) (State.settleCut_leads _)
  split
  · exact State.refuse_leads _ _ _
  · exact State.setTaking_leads _ _

theorem State.byteArrives_advances (s : State) : s.Advances s.byteArrives := by
  have drops (t : State) (h : s.link.fifo ≠ []) (ht : s.dropFront.Leads t) : s.Advances t.settleCut :=
    .inr ⟨h, ht.trans (State.settleCut_leads t)⟩
  unfold State.byteArrives
  split
  · next hf =>
    split
    · split
      · exact .inl rfl
      · exact State.openCommand_advances _ (by simp [hf])
    · exact .inl rfl
  · next hf =>
    have hne : s.link.fifo ≠ [] := by simp [hf]
    split
    · split
      · exact drops _ hne (State.setTaking_leads _ _)
      · exact .inl rfl
    · exact drops _ hne (.refl _)
    · exact drops _ hne (.refl _)
    · exact .inl rfl
  · next hf =>
    rw [State.settleCut_of_cut hf]
    exact .inr ⟨by simp [hf], s.endCommand_leads _⟩
  · exact .inl rfl

theorem State.takeRead_advances (c : Cmd) (s : State) : s.Advances (s.takeRead c) := by
  unfold State.takeRead
  split
  · exact State.atCommand_advances _ (fun u => State.giveReply_leads _ u) s
  · exact State.atCommand_advances _ (fun u => State.giveReply_leads _ u) s
  · exact State.atCommand_advances _ (fun u => State.giveReply_leads _ u) s
  · exact State.atCommand_advances _ State.answerRead_leads s
  · exact State.atLastParam_advances _ State.lineRead_leads s
  · exact State.atLastParam_advances _ State.faceInfo_leads s
  · exact State.atLastParam_advances _ State.imageRead_leads s
  · exact .inl rfl

theorem State.takeFront_advances (s : State) : s.Advances s.takeFront := by
  unfold State.takeFront
  split
  · exact .inl rfl
  · split
    · split
      · exact State.takeRead_advances _ s
      · exact s.byteArrives_advances
    · exact .inl rfl
  · split
    · split
      · exact State.takeRead_advances _ s
      · exact s.byteArrives_advances
    · exact s.byteArrives_advances
  · next hf =>
    simp only [State.csArrives, hf]
    exact .inr ⟨by simp [hf], s.endCommand_leads _⟩
  · next hf =>
    simp only [State.droppedArrives, hf]
    exact .inr ⟨by simp [hf], (s.endCommand_leads _).trans (State.refuse_leads _ _ _)⟩
  · next hf =>
    rw [State.settleCut_of_cut hf]
    exact .inr ⟨by simp [hf], s.endCommand_leads _⟩

theorem State.Leads.length_le {s t : State} (h : s.dropFront.Leads t) :
    t.link.fifo.length ≤ s.link.fifo.length - 1 := by
  have := h.fifo.length_le
  rwa [State.dropFront_fifo, List.length_tail] at this

theorem takeItems_of_fixed {s : State} (h : s.takeFront = s) (n : Nat) : takeItems n s = s := by
  induction n with
  | zero => rfl
  | succ n ih => rw [takeItems, h, ih]

theorem State.takeFront_of_nil {s : State} (h : s.link.fifo = []) : s.takeFront = s := by
  simp only [State.takeFront, h]

/-- As many items as the FIFO holds are enough. -/
theorem takeItems_enough {n m : Nat} {s : State} (hn : s.link.fifo.length ≤ n) (hm : s.link.fifo.length ≤ m) :
    takeItems n s = takeItems m s := by
  induction n generalizing m s with
  | zero =>
    have hfix := State.takeFront_of_nil (List.eq_nil_of_length_eq_zero (Nat.le_zero.1 hn))
    rw [takeItems_of_fixed hfix, takeItems_of_fixed hfix]
  | succ n ih =>
    rcases s.takeFront_advances with hfix | ⟨hne, hleads⟩
    · rw [takeItems_of_fixed hfix, takeItems_of_fixed hfix]
    · have hpos : 0 < s.link.fifo.length := List.length_pos_of_ne_nil hne
      have hlen := hleads.length_le
      obtain ⟨m, rfl⟩ : ∃ k, m = k + 1 := ⟨m - 1, by omega⟩
      rw [takeItems, takeItems]
      exact ih (by omega) (by omega)

/-! ### A read with no byte ahead -/

/-- No byte stands before a command byte, only places that take none of the FIFO's (R174). -/
def NoByteAhead (fifo : List FifoItem) : Prop :=
  ∀ a u b, fifo = a ++ .byte .command u :: b → ∀ i ∈ a, ∀ k x, i ≠ FifoItem.byte k x

/-- The item is not a command byte. -/
def FifoItem.NotCommand (i : FifoItem) : Prop := ∀ u, i ≠ .byte .command u

theorem NoByteAhead.suffix {l m : List FifoItem} (h : NoByteAhead m) (hs : l <:+ m) : NoByteAhead l := by
  obtain ⟨p, rfl⟩ := hs
  intro a u b hl i hi
  exact h (p ++ a) u b (by rw [hl, List.append_assoc]) i (List.mem_append_right _ hi)

theorem noByteAhead_cons_byte (kind : ByteKind) (x : Byte) (rest : List FifoItem) :
    NoByteAhead (.byte kind x :: rest) ↔ ∀ i ∈ rest, i.NotCommand := by
  constructor
  · intro h i hi u hu
    obtain ⟨a, b, rfl⟩ := List.append_of_mem hi
    rw [hu] at h
    exact h (.byte kind x :: a) u b rfl _ (List.mem_cons_self ..) kind x rfl
  · intro h a u b hl i hi
    cases a with
    | nil => cases hi
    | cons e a =>
      obtain ⟨-, hrest⟩ := List.cons_eq_cons.1 hl
      exact absurd rfl (h (.byte .command u) (hrest ▸ List.mem_append_right _ (List.mem_cons_self ..)) u)

theorem noByteAhead_cons_mark {e : FifoItem} (he : e.isByte = false) (rest : List FifoItem) :
    NoByteAhead (e :: rest) ↔ NoByteAhead rest := by
  have hne : ∀ k x, e ≠ FifoItem.byte k x := fun k x hc => by
    rw [hc] at he
    cases he
  refine ⟨fun h => h.suffix (List.suffix_cons e rest), fun h a u b hl i hi => ?_⟩
  cases a with
  | nil => cases hi
  | cons f a =>
    obtain ⟨hf, hrest⟩ := List.cons_eq_cons.1 hl
    rcases List.mem_cons.1 hi with rfl | hi
    · rw [← hf]
      exact hne
    · exact h a u b hrest i hi

/-- The model's test of the bytes behind the first. -/
theorem all_notCommand_iff (l : List FifoItem) :
    (l.filter FifoItem.isByte).all (fun i => match i with
      | .byte .command _ => false
      | _ => true) = true ↔ ∀ i ∈ l, i.NotCommand := by
  rw [List.all_eq_true]
  refine ⟨fun h i hi u hu => ?_, fun h i hi => ?_⟩
  · subst hu
    cases h _ (List.mem_filter.2 ⟨hi, rfl⟩)
  · obtain ⟨hi, -⟩ := List.mem_filter.1 hi
    have := h i hi
    split
    · exact absurd rfl (this _)
    · rfl

theorem Link.noByteAhead_iff (l : Link) : l.noByteAhead = true ↔ NoByteAhead l.fifo := by
  unfold Link.noByteAhead
  induction l.fifo with
  | nil => exact ⟨fun _ a u b hl => by simp at hl, fun _ => rfl⟩
  | cons e rest ih =>
    cases he : e.isByte with
    | false =>
      rw [noByteAhead_cons_mark he, List.filter_cons_of_neg (by simp [he])]
      exact ih
    | true =>
      obtain ⟨kind, x, rfl⟩ : ∃ kind x, e = .byte kind x := by
        cases e with
        | byte kind x => exact ⟨kind, x, rfl⟩
        | csRise => cases he
        | dropped code => cases he
        | cut => cases he
      rw [noByteAhead_cons_byte, List.filter_cons_of_pos rfl]
      exact all_notCommand_iff rest

/-! ### Reply positions -/

/-- The reply's next byte is shifted out. -/
def State.shiftReply (s : State) : State :=
  s.onLink fun l => { l with miso := s.replyByte.1, reply := s.replyByte.2, selected := true }

theorem exec_replyPosition {s : State} (v : Byte) (hs : s.power.startUp = false) (hf : s.link.framing = .reply) :
    exec (.byteClockedIn .parameter v) s = .next s.readAhead.shiftReply := by
  rw [exec_parameterByte v hs]
  simp only [State.clockParameter, hf]
  rfl

theorem State.readAhead_of_waiting {s : State} (hr : s.link.reply = .waiting) (hn : NoByteAhead s.link.fifo) :
    s.readAhead = takeItems s.link.fifo.length s :=
  if_pos ⟨hr, s.link.noByteAhead_iff.2 hn⟩

theorem State.readAhead_of_byteAhead {s : State} (hn : ¬ NoByteAhead s.link.fifo) : s.readAhead = s :=
  if_neg fun hc => hn (s.link.noByteAhead_iff.1 hc.2)

/-- Taking the front item first does not change what a waiting read gives in its first reply position. -/
theorem exec_replyPosition_ahead {s : State} (v : Byte) (hs : s.power.startUp = false) (hf : s.link.framing = .reply)
    (hr : s.link.reply = .waiting) (hn : NoByteAhead s.link.fifo) :
    exec (.byteClockedIn .parameter v) s = exec (.byteClockedIn .parameter v) s.takeFront := by
  rcases s.takeFront_advances with hfix | ⟨hne, hleads⟩
  · rw [hfix]
  · have hpos : 0 < s.link.fifo.length := List.length_pos_of_ne_nil hne
    have hlen := hleads.length_le
    obtain ⟨k, hk⟩ : ∃ k, s.link.fifo.length = k + 1 := ⟨s.link.fifo.length - 1, by omega⟩
    have hread : s.takeFront.readAhead = takeItems k s.takeFront := by
      rcases hleads.reply with hreply | hnil
      · rw [State.readAhead_of_waiting (hreply.trans hr)
          (hn.suffix (hleads.fifo.trans (List.tail_suffix _)))]
        exact takeItems_enough (Nat.le_refl _) (by omega)
      · rw [State.readAhead_of (.inl hnil), takeItems_of_fixed (State.takeFront_of_nil hnil)]
    rw [exec_replyPosition v hs hf, State.readAhead_of_waiting hr hn, hk, takeItems,
      exec_replyPosition v (by rw [hleads.power]; exact hs) (hleads.framing.trans hf), hread]

/-- A row that takes the front item, in the words of the statement. -/
def State.TakesFront (s : State) (row : Instr) : Prop :=
  (∃ c rest, s.link.fifo = .byte .command (Cmd.code c) :: rest ∧ c.kind = .read ∧
    row = if c.params = 0 then c.row else .fifoByteArrival) ∨
  (∃ b rest c got, s.link.fifo = .byte .parameter b :: rest ∧ s.link.taking = .params c got ∧ c.kind = .read ∧
    row = if got.length + 1 = c.params then c.row else .fifoByteArrival) ∨
  (∃ rest, s.link.fifo = .csRise :: rest ∧ row = .csRising .arrival) ∨
  (∃ code rest, s.link.fifo = .dropped code :: rest ∧ row = .droppedCommandPlace)

/-- The own row of a read is the arrival at which it acts. -/
theorem exec_row_of_read {c : Cmd} (h : c.kind = .read) (s : State) : exec c.row s = .next (s.takeRead c) := by
  cases c <;> first | rfl | exact absurd h (by decide)

theorem exec_of_takesFront {s : State} {row : Instr} (h : s.TakesFront row) : exec row s = .next s.takeFront := by
  have arrives (u : State) : exec .fifoByteArrival u = .next u.byteArrives := rfl
  rcases h with ⟨c, rest, hf, hk, rfl⟩ | ⟨b, rest, c, got, hf, ht, hk, rfl⟩ | ⟨rest, hf, rfl⟩ | ⟨code, rest, hf, rfl⟩
  · simp only [State.takeFront, hf, Cmd.ofCode_code]
    split
    · exact exec_row_of_read hk s
    · exact arrives s
  · simp only [State.takeFront, hf, ht]
    split
    · exact exec_row_of_read hk s
    · exact arrives s
  · simp only [State.takeFront, hf]
    rfl
  · simp only [State.takeFront, hf]
    rfl

/-! ### A read that acts in its first reply position -/

theorem State.begun_leads (s : State) : s.dropFront.Leads s.begun := s.endCommand_leads _

/-- STATUS READ and ID READ act at their command byte whatever the power state, and give the dummy byte first. -/
theorem exec_replyPosition_immediate {s : State} {c : Cmd} {act : State → State} {data : State → List Byte} (v : Byte)
    (hs : s.power.startUp = false) (hf : s.link.framing = .reply) (hr : s.link.reply = .waiting)
    (hfifo : s.link.fifo = [.byte .command c.code]) (htaken : c.takenAsleep = true) (hp : c.params = 0)
    (htake : ∀ u : State, u.takeRead c = u.atCommand c act)
    (hact : ∀ p : State, act p =
      { p with link := { p.link with reply := p.replyIfOpen (.data (0xA5 :: data p)) } }) :
    ∃ t, exec (.byteClockedIn .parameter v) s = .next t ∧ t.link.miso = 0xA5 := by
  have hahead : NoByteAhead s.link.fifo := by
    rw [hfifo, noByteAhead_cons_byte]
    exact nofun
  have hleads := s.begun_leads
  have hempty : s.begun.link.fifo = [] := by
    have := hleads.fifo
    rw [State.dropFront_fifo, hfifo] at this
    exact List.suffix_nil.1 this
  have hwaits : s.begun.link.reply = .waiting := by
    have hlink : s.begun.link.reply = s.dropFront.endTaking.link.reply := rfl
    rw [hlink, State.endTaking_link]
    exact hr
  have hfront : s.takeFront = (act s.begun).settleCut := by
    simp only [State.takeFront, hfifo, Cmd.ofCode_code, hp, if_true]
    rw [htake, State.atCommand_acts act ⟨[], hfifo⟩ (.inr htaken)]
  have hgiven : s.begun.replyIfOpen (.data (0xA5 :: data s.begun)) = .data (0xA5 :: data s.begun) :=
    if_pos ⟨hempty, .inl hwaits⟩
  have hread : s.readAhead = { s.begun with link := { s.begun.link with reply := .data (0xA5 :: data s.begun) } } := by
    rw [State.readAhead_of_waiting hr hahead, hfifo, List.length_singleton, takeItems, takeItems, hfront, hact, hgiven]
    exact State.settleCut_of_none fun rest => by
      rw [hempty]
      exact nofun
  refine ⟨_, exec_replyPosition v hs hf, ?_⟩
  rw [hread]
  rfl

/-! ### The bytes of an image reply -/

theorem pixelByte_toNat (a b : Level) :
    (pixelByte a b).toNat / 16 = a.val ∧ (pixelByte a b).toNat % 16 = b.val := by
  have ha := a.isLt
  have hb := b.isLt
  rw [pixelByte, byteOf_toNat]
  omega

theorem State.windowLevel_val (s : State) (plane : PlaneName) (k : Nat) : (s.windowLevel plane k).val =
    if k < s.port.size then
      ((if plane = .target then s.image.target else s.image.current).level
        (s.port.window.x0 + k % (s.port.window.x1 - s.port.window.x0 + 1))
        (s.port.window.y0 + k / (s.port.window.x1 - s.port.window.x0 + 1))).val
    else 0 := by
  unfold State.windowLevel
  split
  · cases plane <;> rfl
  · rfl

/-- A position of an image reply, before the window's end and past it. -/
theorem State.replyByte_of_image {s : State} {plane : PlaneName} {k : Nat} (h : s.link.reply = .image true plane k) :
    (2 * k < s.port.size → s.replyByte = (s.windowByte plane k, .image true plane (k + 1))) ∧
    (s.port.size ≤ 2 * k → s.replyByte = (0, .image true plane k)) := by
  simp only [State.replyByte, h]
  exact ⟨fun hlt => if_pos (by omega), fun hge => if_neg (by omega)⟩

/-- Settles O5: taking what stands ahead first is the same; STATUS READ and ID READ act at once; and each reply position
shifts out the reply as it stands. -/
theorem replyPositionsShiftOutTheReply : Obligations.ReplyPositionsShiftOutTheReply := by
  intro s v hs hf w level noByteAhead takesFront
  refine ⟨fun row t hr hn htakes hexec => ?_, fun c hc hr hfifo => ?_, fun h => ?_⟩
  · have ht : s.takeFront = t := Host.Outcome.next.inj ((exec_of_takesFront htakes).symm.trans hexec)
    rw [exec_replyPosition_ahead v hs hf hr hn, ht]
  · rcases hc with rfl | rfl
    · exact exec_replyPosition_immediate v hs hf hr hfifo rfl rfl (fun _ => rfl) State.statusRead_eq
    · exact exec_replyPosition_immediate (data := fun _ => [0x57, 0x04, 0x60, 0x01]) v hs hf hr hfifo rfl rfl
        (fun _ => rfl) State.idRead_eq
  · have hread : s.readAhead = s := by
      rcases h with h | h | h
      · exact State.readAhead_of (.inr h)
      · exact State.readAhead_of (.inl h)
      · exact State.readAhead_of_byteAhead h
    have hexec := exec_replyPosition v hs hf
    rw [hread] at hexec
    refine ⟨s.replyByte.1, s.replyByte.2, hexec, fun hr => ?_, fun hr => ?_, fun hr => ?_, fun b rest hr => ?_,
      fun plane k hr => ?_, fun plane k hr => ⟨fun hlt => ?_, fun hge => ?_⟩⟩
    · simp only [State.replyByte, hr, and_self]
    · rcases hr with hr | hr <;> simp only [State.replyByte, hr, and_self]
    · rw [State.replyByte_of_nil hr]
      exact ⟨rfl, rfl⟩
    · rw [State.replyByte_of_cons hr]
      exact ⟨rfl, rfl⟩
    · have hdummy : s.replyByte = (0xA5, .image true plane k) := by simp only [State.replyByte, hr]
      rw [hdummy]
      exact ⟨rfl, rfl⟩
    · rw [(State.replyByte_of_image hr).1 hlt]
      obtain ⟨hfirst, hsecond⟩ := pixelByte_toNat (s.windowLevel plane (2 * k)) (s.windowLevel plane (2 * k + 1))
      rw [State.windowLevel_val] at hfirst hsecond
      rw [if_pos hlt] at hfirst
      exact ⟨hfirst, hsecond, rfl⟩
    · rw [(State.replyByte_of_image hr).2 hge]
      exact ⟨rfl, rfl⟩

end Sys2Proof.Machine
end
